-- ==== Sys2Proof/Word.lean ====
section
/-! DEFINITION. The plain value types of the DHT11 reader: bytes, counter values, line levels, pin directions
(00_scope.md R6, R18). -/

namespace Sys2Proof

/-- A byte: 8 bits, bit 7 the most significant (R18). -/
abbrev Byte := BitVec 8

/-- The default of `W`, the width of the TimingCounter in bits (R6). -/
abbrev counterWidth : Nat := 16

/-- `uW` at the default width: a counter value or an elapsed time, unsigned, arithmetic modulo `2^W` (R6, R18). -/
abbrev Time := BitVec counterWidth

/-- A level of the line: 0 is low, 1 is high (R18). -/
inductive Level where
  | low
  | high
  deriving DecidableEq, Repr

/-- A direction of the pin: 0 is input, 1 is output (R18). -/
inductive Direction where
  | input
  | output
  deriving DecidableEq, Repr

/-- The bit a level stands for (R18, R74, R78). -/
def Level.toBit : Level → BitVec 1
  | .low => 0
  | .high => 1

/-- The level a bit stands for (R18). -/
def Level.ofBit (b : BitVec 1) : Level := if b = 1 then .high else .low

/-- The bit a direction stands for (R18, R77). -/
def Direction.toBit : Direction → BitVec 1
  | .input => 0
  | .output => 1

/-- The direction a bit stands for (R18). -/
def Direction.ofBit (b : BitVec 1) : Direction := if b = 1 then .output else .input

end Sys2Proof
end

