-- ==== Sys2Proof/Config.lean ====
section
/-! DEFINITION. The implementation parameters of one instance (00_scope.md R6 to R17) as one record, and the free
values: what the environment or an unspecified register supplies and no rule fixes (93_implementation_defined.md). -/

namespace Sys2Proof

/-- The sampling disciplines of R16 and R37: one step per counter tick, or any gap between two steps. -/
inductive Sampling where
  | sync1
  | async
  deriving DecidableEq, Repr

/-- The parameter record of one instance of the block, with the defaults of R6 to R16: chosen when the instance is built
and written by nothing afterwards (R17, D12). Every rule of the model takes it as an argument. -/
structure Params where
  /-- `W` (R6). -/
  width : Nat := counterWidth
  /-- `TICK` in microseconds (R7): wall-clock meaning only, no rule depends on it (U5). DESIGN CHOICE (log entry 23): the
  spec gives the duration no type; here it is a rational number, so that a counter faster than 1 MHz (R131) has a record. -/
  tickMicros : Rat := 1
  /-- `T_WAKE` (R8). -/
  tWake : Nat := 18000
  /-- `T_RESP` (R9). -/
  tResp : Nat := 100
  /-- `T_LOW` (R10). -/
  tLow : Nat := 100
  /-- `T_HIGH` (R11). -/
  tHigh : Nat := 200
  /-- `T_ONE` (R12). -/
  tOne : Nat := 110
  /-- `N_PAYLOAD` (R13). -/
  nPayload : Nat := 5
  /-- `MARKER_BITS` (R14). -/
  markerBits : Nat := 1
  /-- `MARKER_VALUE` (R14). -/
  markerValue : Byte := 1
  /-- `SAMPLING` (R16): what the environment does where no input is queued. -/
  sampling : Sampling := .sync1
  deriving DecidableEq, Repr

/-- `N_DATA_BITS = N_PAYLOAD * 8` (R13). -/
def Params.nDataBits (p : Params) : Nat := p.nPayload * 8

/-- `N_PULSES = MARKER_BITS + N_DATA_BITS` (R15). -/
def Params.nPulses (p : Params) : Nat := p.markerBits + p.nDataBits

/-- The constraints of R6, R12 and D12 on a choice of parameters. The payload is the five bytes of `FRAME[1..5]` (R13, R23),
the marker is one byte (R14, R94), and `CNT` counts the pulses in 6 bits (R21); a tick has a positive length (R7). What
D12 does not say of these is the model's choice: DESIGN CHOICE, log entries 15 and 23. -/
def Params.wf (p : Params) : Bool :=
  p.tOne < p.tHigh && p.tWake < 2 ^ p.width && p.tResp < 2 ^ p.width && p.tLow < 2 ^ p.width && p.tHigh < 2 ^ p.width &&
    0 < p.tickMicros && p.nPayload == 5 && p.markerBits ≤ 8 && p.nPulses < 64

/-- Wall-clock length of a number of ticks, in microseconds (R7, R143). -/
def Params.micros (p : Params) (ticks : Nat) : Rat := ticks * p.tickMicros

/-- The instance that `exec` and `step` are: every parameter at its default (R6 to R16). -/
def params : Params := {}

/-! Free values, each applied to the counter of draws that `State` holds. -/

/-- The reset input where no input is queued: the outside world's choice (R126). -/
opaque Config.freeRst : Nat → Bool

/-- The `start` input where no input is queued: the host's choice (R32). -/
opaque Config.freeStart : Nat → Bool

/-- The level of the released line where no input is queued: the sensor's choice (R34). -/
opaque Config.freeLevel : Nat → Bool

/-- The counter advance `d_k` between two steps under `ASYNC` where no input is queued (R36, R37, U13). -/
opaque Config.freeTicks : Nat → Nat

/-- What `T0` holds after `rst` (R126: unspecified; U8: any value). -/
opaque Config.freeT0 : Nat → Nat

/-- The length of a low phase that the frame format leaves to the sensor (R48, R49), before it is bounded. -/
opaque Config.freeLow : Nat → Nat

/-- The length of a high phase that the frame format leaves to the sensor (R48, R49), before it is bounded. -/
opaque Config.freeHigh : Nat → Nat

end Sys2Proof
end

