-- ==== Sys2Proof/Syntax.lean ====
section
/-! DEFINITION. The instructions: one constructor per row of the opcode table (30_encoding.md R57), in the table's
order. The block executes no program (00_scope.md R2): a row is a host command, a status query, a step rule, a port
operation, a pulse or a frame that the block recognises, or an outcome of a cycle. -/

namespace Sys2Proof

/-- One constructor per row of the opcode table. -/
inductive Instr where
  -- host1: the value of `start` (R50, R65, R82)
  | read
  | nocmd
  -- query: the outputs the host can read (R66)
  | busyQ
  | doneQ
  | validQ
  | statusQ
  | resultQ
  -- code3: one step rule per `STATE` code, and the two reserved codes (R20, R81)
  | stepIdle
  | stepRequestStart
  | stepAwaitResponse
  | stepBitLow
  | stepBitHigh
  | stepValidate
  | reservedState110
  | reservedState111
  -- portop: the operations that cross the block's boundary (R73 to R78)
  | setDirection (d : Direction)
  | setLevel (v : Level)
  | readLevel
  | now
  -- pulse: measured phases of the line (R46, R47); `lm`, `hm`, `e` are values of `Elapsed()`
  | bit0 (lm hm : Time)
  | bit1 (lm hm : Time)
  | lowTooLong (e : Time) (l : Level)
  | highTooLong (e : Time) (l : Level)
  -- frame41: a complete frame, `h f t g c` the five payload bytes (R48)
  | frame (h f t g c : Byte)
  -- status3: one outcome per `STATUS` code, and the two reserved codes (R24, R105)
  | ok
  | noResponse
  | stuckLow
  | stuckHigh
  | missingStartMarker
  | checksumMismatch
  | reservedStatus110
  | reservedStatus111
  deriving DecidableEq, Repr

/-- The outputs that a row of the table reads (R57, R66). The sixth host-readable output, `FRAME` (R32), has no row: the
host reads it by an event of its own (`Event.askFrame`). -/
inductive Query where
  | busy
  | done
  | valid
  | status
  | result
  deriving DecidableEq, Repr

/-- The table row of each query (R66). -/
def Query.instr : Query → Instr
  | .busy => .busyQ
  | .done => .doneQ
  | .valid => .validQ
  | .status => .statusQ
  | .result => .resultQ

end Sys2Proof
end

