-- ==== Sys2Proof/WellFormed.lean ====
section
/-! DEFINITION. Which instruction terms are encodings of something (30_encoding.md R47, R48, R54). -/

namespace Sys2Proof

/-- The conditions the table puts on the operands of a row: the bands of R47 for pulses, the checksum of R48 for a
frame. Every other row has no operand or takes every operand. -/
def Instr.wf : Instr → Bool
  | .bit0 lm hm => lm.toNat ≤ params.tLow && hm.toNat ≤ params.tOne
  | .bit1 lm hm => lm.toNat ≤ params.tLow && params.tOne < hm.toNat && hm.toNat ≤ params.tHigh
  | .lowTooLong e _ => params.tLow < e.toNat
  | .highTooLong e _ => params.tHigh < e.toNat
  | .frame h f t g c => c == h + f + t + g
  | .read | .nocmd => true
  | .busyQ | .doneQ | .validQ | .statusQ | .resultQ => true
  | .stepIdle | .stepRequestStart | .stepAwaitResponse | .stepBitLow | .stepBitHigh | .stepValidate => true
  | .reservedState110 | .reservedState111 => true
  | .setDirection _ | .setLevel _ | .readLevel | .now => true
  | .ok | .noResponse | .stuckLow | .stuckHigh | .missingStartMarker | .checksumMismatch => true
  | .reservedStatus110 | .reservedStatus111 => true

end Sys2Proof
end

