-- ==== Sys2Proof/Decode.lean ====
section
/-! DEFINITION. The encodings of the opcode table (30_encoding.md R45 to R57): a code is a value in one of the table's
seven formats; `decode` is total on codes and rejects by name; `encode` is written from the same rules. -/

namespace Sys2Proof

/-- The `portop` encodings: the signal acted on, with the operand letter's bit (R73, table rows `setDirection` to
`now`). -/
inductive PortCode where
  | oe (d : BitVec 1)
  | out (v : BitVec 1)
  | lvl
  | now
  deriving DecidableEq, Repr

/-- The `pulse` encodings (R46, R47): a pulse whose two phases have been measured; a sample inside a low phase with its
`Elapsed()`; a sample inside a high phase with its `Elapsed()`. -/
inductive PulseCode where
  | measured (lm hm : Time)
  | lowSample (e : Time) (l : Level)
  | highSample (e : Time) (l : Level)
  deriving DecidableEq, Repr

/-- A code of the opcode table, in one of its seven formats (R57). -/
inductive Code where
  | host1 (start : BitVec 1)
  | query (output : Query)
  | code3 (code : BitVec 3)
  | portop (p : PortCode)
  | pulse (p : PulseCode)
  | frame41 (bits : BitVec 41)
  | status3 (code : BitVec 3)
  deriving DecidableEq, Repr

/-- Why a code is no row of the table (R47, R54). -/
inductive DecodeError where
  /-- A measured pulse whose low phase exceeds `T_LOW` (R90: the block fails before the pulse is complete). -/
  | lowPhaseOverLimit
  /-- A measured pulse whose high phase exceeds `T_HIGH` (R91: the block fails before the pulse is complete). -/
  | highPhaseOverLimit
  /-- A sample of a phase that is still within its limit: nothing is recognised yet (R90, R91). -/
  | phaseWithinLimit
  /-- A frame whose marker bit is 0 (R54). -/
  | markerNotOne
  /-- A frame whose checksum byte is not the sum (R54). -/
  | checksumWrong
  deriving DecidableEq, Repr

/-- Format `host1` (R50). -/
def decodeHost1 (start : BitVec 1) : Instr := if start = 1 then .read else .nocmd

/-- Format `code3`: `STATE` code to step rule (R20, R57, R81). -/
def decodeState (code : BitVec 3) : Instr :=
  match code.toNat with
  | 0 => .stepIdle
  | 1 => .stepRequestStart
  | 2 => .stepAwaitResponse
  | 3 => .stepBitLow
  | 4 => .stepBitHigh
  | 5 => .stepValidate
  | 6 => .reservedState110
  | _ => .reservedState111

/-- Format `portop` (R73 to R78). -/
def decodePort : PortCode → Instr
  | .oe d => .setDirection (Direction.ofBit d)
  | .out v => .setLevel (Level.ofBit v)
  | .lvl => .readLevel
  | .now => .now

/-- Format `pulse` (R47). -/
def decodePulse : PulseCode → Except DecodeError Instr
  | .measured lm hm =>
    if params.tLow < lm.toNat then .error .lowPhaseOverLimit
    else if params.tHigh < hm.toNat then .error .highPhaseOverLimit
    else if params.tOne < hm.toNat then .ok (.bit1 lm hm)
    else .ok (.bit0 lm hm)
  | .lowSample e l => if params.tLow < e.toNat then .ok (.lowTooLong e l) else .error .phaseWithinLimit
  | .highSample e l => if params.tHigh < e.toNat then .ok (.highTooLong e l) else .error .phaseWithinLimit

/-- Format `frame41` (R48): the leftmost character, pulse 0, is bit 40; the last, pulse 40, is bit 0. -/
def decodeFrame (w : BitVec 41) : Except DecodeError Instr :=
  let h := w.extractLsb' 32 8
  let f := w.extractLsb' 24 8
  let t := w.extractLsb' 16 8
  let g := w.extractLsb' 8 8
  let c := w.extractLsb' 0 8
  if w.getLsbD 40 = false then .error .markerNotOne
  else if c = h + f + t + g then .ok (.frame h f t g c)
  else .error .checksumWrong

/-- Format `status3` (R24, R105). -/
def decodeStatus (code : BitVec 3) : Instr :=
  match code.toNat with
  | 0 => .ok
  | 1 => .noResponse
  | 2 => .stuckLow
  | 3 => .stuckHigh
  | 4 => .missingStartMarker
  | 5 => .checksumMismatch
  | 6 => .reservedStatus110
  | _ => .reservedStatus111

/-- The row of the opcode table that a code stands for (R57). -/
def decode : Code → Except DecodeError Instr
  | .host1 start => .ok (decodeHost1 start)
  | .query q => .ok q.instr
  | .code3 code => .ok (decodeState code)
  | .portop p => .ok (decodePort p)
  | .pulse p => decodePulse p
  | .frame41 w => decodeFrame w
  | .status3 code => .ok (decodeStatus code)

/-- The 41 bits of a frame in order of arrival, leftmost first: marker, then five bytes (R48). -/
def encodeFrame (h f t g c : Byte) : BitVec 41 :=
  (1#1 ++ h ++ f ++ t ++ g ++ c : BitVec (1 + 8 + 8 + 8 + 8 + 8)).cast rfl

/-- The code of each row, from the table's `encoding` column (R48, R50, R57, R66). -/
def encode : Instr → Code
  | .read => .host1 1
  | .nocmd => .host1 0
  | .busyQ => .query .busy
  | .doneQ => .query .done
  | .validQ => .query .valid
  | .statusQ => .query .status
  | .resultQ => .query .result
  | .stepIdle => .code3 0b000
  | .stepRequestStart => .code3 0b001
  | .stepAwaitResponse => .code3 0b010
  | .stepBitLow => .code3 0b011
  | .stepBitHigh => .code3 0b100
  | .stepValidate => .code3 0b101
  | .reservedState110 => .code3 0b110
  | .reservedState111 => .code3 0b111
  | .setDirection d => .portop (.oe d.toBit)
  | .setLevel v => .portop (.out v.toBit)
  | .readLevel => .portop .lvl
  | .now => .portop .now
  | .bit0 lm hm => .pulse (.measured lm hm)
  | .bit1 lm hm => .pulse (.measured lm hm)
  | .lowTooLong e l => .pulse (.lowSample e l)
  | .highTooLong e l => .pulse (.highSample e l)
  | .frame h f t g c => .frame41 (encodeFrame h f t g c)
  | .ok => .status3 0b000
  | .noResponse => .status3 0b001
  | .stuckLow => .status3 0b010
  | .stuckHigh => .status3 0b011
  | .missingStartMarker => .status3 0b100
  | .checksumMismatch => .status3 0b101
  | .reservedStatus110 => .status3 0b110
  | .reservedStatus111 => .status3 0b111

/-- The code that a table word stands for, where only its bits and its width are known (log entry 4): one or two bits
are the `start` signal, three to eight bits a `STATE` code (R57: "A decoder for the state machine can be written from
the `code3` rows alone"), more are a frame. -/
def tableCode (nbits w : Nat) : Option Code :=
  if nbits < 3 then (if w < 2 then some (.host1 (BitVec.ofNat 1 w)) else none)
  else if nbits ≤ 8 then (if w < 8 then some (.code3 (BitVec.ofNat 3 w)) else none)
  else (if w < 2 ^ 41 then some (.frame41 (BitVec.ofNat 41 w)) else none)

/-- The instruction that `decode` reads from a table word. -/
def decodeTableWord (nbits w : Nat) : Option Instr :=
  match tableCode nbits w with
  | some c => (decode c).toOption
  | none => none

end Sys2Proof
end

