-- ==== Sys2Proof/Machine/State.lean ====
section
/-! DEFINITION. The state of the reader and of the three ports it is connected to (10_state.md R20 to R28, 20_memory.md
R30 to R36), the reasons a step can stop, and the state after reset (70_reset_and_hazards.md R126). -/

namespace Sys2Proof.Machine

/-- `STATE` codes (R20). -/
abbrev stIdle : BitVec 3 := 0
abbrev stRequestStart : BitVec 3 := 1
abbrev stAwaitResponse : BitVec 3 := 2
abbrev stBitLow : BitVec 3 := 3
abbrev stBitHigh : BitVec 3 := 4
abbrev stValidate : BitVec 3 := 5

/-- `FRAME[0..5]` (R23): the marker byte and `byte1 .. byte5`. -/
structure Frame where
  marker : Byte
  byte1 : Byte
  byte2 : Byte
  byte3 : Byte
  byte4 : Byte
  byte5 : Byte
  deriving DecidableEq, Repr

/-- The frame buffer with every byte 0 (R23, R82). -/
def Frame.zero : Frame := ⟨0, 0, 0, 0, 0, 0⟩

/-- The five error kinds (R105). -/
inductive ErrorKind where
  | noResponse
  | stuckLow
  | stuckHigh
  | missingStartMarker
  | checksumMismatch
  deriving DecidableEq, Repr

/-- What `STATUS` can hold (R24): six members, the reserved codes 6 and 7 are not constructible
(93_implementation_defined.md U7). -/
inductive Status where
  | ok
  | error (k : ErrorKind)
  deriving DecidableEq, Repr

/-- `SensorReading` (R28): the five payload bytes, without the marker. -/
structure SensorReading where
  humidityInt : Byte
  humidityFrac : Byte
  temperatureInt : Byte
  temperatureFrac : Byte
  checksum : Byte
  deriving DecidableEq, Repr

/-- `RESULT` (R28). -/
inductive Result where
  | none
  | ok (r : SensorReading)
  | err (k : ErrorKind)
  deriving DecidableEq, Repr

/-- What an operation that returns a value gave back: to the host (R32, R66), or to a caller of the port reads (R74, R75).
The spec names no register for a returned value; this is the model's own type (log entry 3). -/
inductive Answer (w : Nat := counterWidth) where
  | none
  | bit (b : Bool)
  | code (c : BitVec 3)
  | frame (f : Frame)
  | result (r : Result)
  | level (l : Level)
  | time (t : BitVec w)
  deriving DecidableEq, Repr

/-- One sample of the inputs (R30, R32, R33): `rst`, `start`, the line level, and `ticks`, the number `d_k` of counter
ticks since the sample before (R36). -/
structure Sample where
  rst : Bool
  start : Bool
  ticks : Nat
  lvl : Level
  deriving DecidableEq, Repr

/-- What the outside world does next: it lets the block take one step on a sample of the inputs (R30), or the host reads
an output, which is no step of the block (R32, R66; log entry 5). `askFrame` reads `FRAME[0..5]`, which R32 makes
host-readable and to which the table gives no row. -/
inductive Event where
  | sample (x : Sample)
  | ask (q : Query)
  | askFrame
  deriving DecidableEq, Repr

/-- The state of an instance whose counter has `w` bits (R6; the default where no width is written): the block's stored
registers (R20 to R26), the inputs as last sampled (R32, R33), and the model's own fields (log entries 2, 3, 5). -/
structure State (w : Nat := counterWidth) where
  /-- `STATE` (R20). -/
  state : BitVec 3
  /-- `CNT` (R21). -/
  cnt : BitVec 6
  /-- `T0` (R22). -/
  t0 : BitVec w
  /-- `FRAME[0..5]` (R23). -/
  frame : Frame
  /-- `STATUS` (R24). -/
  status : Status
  /-- `DONE` (R25). -/
  done : Bool
  /-- `OE` (R26). -/
  oe : Direction
  /-- `OUT` (R26). -/
  out : Level
  /-- The `rst` input of the step (R32, R126). -/
  rst : Bool
  /-- The `start` input of the step (R32). -/
  start : Bool
  /-- The `now` input of the step: the TimingCounter (R33, R36). -/
  now : BitVec w
  /-- The `lvl` input of the step (R33, R34). -/
  lvl : Level
  /-- What the outside world will do, oldest first: the host's commands and the bus trace (R2, "program"). -/
  inputs : List Event
  /-- The value the last query or port read returned. -/
  answer : Answer w
  /-- How many free values have been drawn. -/
  draws : Nat
  deriving DecidableEq, Repr

/-- The machine has no fault: an error of the protocol is returned as a value and the block goes on (R105, R107), and
everything the host can do wrong is ignored (R68) or invisible to the block (R72). -/
inductive Fault where
  deriving DecidableEq, Repr

/-- The reasons for having no next state. -/
inductive Refusal where
  /-- Raised by an arm of `exec` whose instruction has no meaning yet; safe. -/
  | notModelled (mnemonic : String)
  /-- Raised by a step of a block whose `STATE` holds code 6 or 7, and by those two rows of the table (R20, R54, R81,
  U6: "no step rule exists"); safe. -/
  | reservedState (code : BitVec 3)
  /-- Raised by the two rows of the table for `STATUS` codes 6 and 7 (R24, R54, U7: "never written"); safe. -/
  | reservedStatus (code : BitVec 3)
  deriving DecidableEq, Repr

/-- The state of an instance right after reset (R126). `T0`, the inputs as last sampled, and the model's own fields have
no reset value in the spec: log entries 1 to 3 and 5 name these. -/
def State.resetAt (w : Nat) : State w where
  state := stIdle
  cnt := 0
  t0 := 0
  frame := Frame.zero
  status := .ok
  done := false
  oe := .input
  out := .high
  rst := false
  start := false
  now := 0
  lvl := .high
  inputs := []
  answer := .none
  draws := 0

/-- The default instance right after reset (R126). -/
def State.reset : State := State.resetAt counterWidth

end Sys2Proof.Machine
end

