-- ==== Sys2Proof/Machine/Flags.lean ====
section
/-! DEFINITION. The derived outputs of the block, functions of the stored state (10_state.md R24, R27, R28), and the
level of the line (20_memory.md R34). -/

namespace Sys2Proof.Machine

variable {w : Nat}

/-- The code of an error kind (R105). -/
def ErrorKind.code : ErrorKind → BitVec 3
  | .noResponse => 1
  | .stuckLow => 2
  | .stuckHigh => 3
  | .missingStartMarker => 4
  | .checksumMismatch => 5

/-- The 3-bit code that `STATUS` shows (R24). -/
def Status.code : Status → BitVec 3
  | .ok => 0
  | .error k => k.code

/-- `BUSY = (STATE != IDLE)` (R27). -/
def busy (s : State w) : Bool := s.state != stIdle

/-- `VALID = (DONE = 1 and STATUS = 0)` (R27). -/
def valid (s : State w) : Bool := s.done && s.status == .ok

/-- The payload `FRAME[1..5]` as a `SensorReading` (R28). -/
def Frame.reading (f : Frame) : SensorReading := ⟨f.byte1, f.byte2, f.byte3, f.byte4, f.byte5⟩

/-- `RESULT` (R28). -/
def result (s : State w) : Result :=
  match s.done, s.status with
  | false, _ => .none
  | true, .ok => .ok s.frame.reading
  | true, .error k => .err k

/-- The level of the line (R34): the block's own level while it drives, otherwise what the sensor and the pull-up make
of it. -/
def lineLevel (s : State w) : Level :=
  match s.oe with
  | .output => s.out
  | .input => s.lvl

/-- The output that a query reads, a pure function of the stored state (R66). -/
def output (q : Query) (s : State w) : Answer w :=
  match q with
  | .busy => .bit (busy s)
  | .done => .bit s.done
  | .valid => .bit (valid s)
  | .status => .code s.status.code
  | .result => .result (result s)

/-- What the host does with `FRAME[3]` (R121, information only, outside the block): degrees Fahrenheit,
`round(C * 1.8) + 32`. -/
def hostFahrenheit (c : Byte) : Nat := (18 * c.toNat + 5) / 10 + 32

end Sys2Proof.Machine
end

