-- ==== Sys2Proof/Machine/Operands.lean ====
section
/-! DEFINITION. The computations the step rules are made of: elapsed time (R76), the classification of a high phase (R93),
the place of a bit in the frame buffer (R94), the marker check and the checksum (R100, R101). -/

namespace Sys2Proof.Machine

/-- `Elapsed() = Now() -_W T0` (R76). -/
def elapsed {w : Nat} (s : State w) : BitVec w := s.now - s.t0

/-- `Bit(e)` (R93). -/
def bitOf {w : Nat} (p : Params) (e : BitVec w) : Bool := p.tOne < e.toNat

/-- `byte(k)` (R94). -/
def bytePos (k : Nat) (p : Params := params) : Nat :=
  if k < p.markerBits then 0 else 1 + (k - p.markerBits) / 8

/-- `bit(k)` (R94). -/
def bitPos (k : Nat) (p : Params := params) : Nat :=
  if k < p.markerBits then p.markerBits - 1 - k else 7 - (k - p.markerBits) % 8

/-- `b[p] <- v`: one bit of a byte is assigned, the others keep their values (R18, R91). -/
def setBit (b : Byte) (p : Nat) (v : Bool) : Byte :=
  if v then b ||| (1#8 <<< p) else b &&& ~~~(1#8 <<< p)

/-- `FRAME[i]` (R23). -/
def Frame.get (f : Frame) : Nat → Byte
  | 0 => f.marker
  | 1 => f.byte1
  | 2 => f.byte2
  | 3 => f.byte3
  | 4 => f.byte4
  | 5 => f.byte5
  | _ => 0

/-- `FRAME[i][p] <- v` (R91). There is no `FRAME[i]` with `i > 5`: such an index selects none of the 48 bits, and all of
them keep their values (R91; reached only with `CNT` over its range; log entry 6). -/
def Frame.write (f : Frame) (i p : Nat) (v : Bool) : Frame :=
  match i with
  | 0 => { f with marker := setBit f.marker p v }
  | 1 => { f with byte1 := setBit f.byte1 p v }
  | 2 => { f with byte2 := setBit f.byte2 p v }
  | 3 => { f with byte3 := setBit f.byte3 p v }
  | 4 => { f with byte4 := setBit f.byte4 p v }
  | 5 => { f with byte5 := setBit f.byte5 p v }
  | _ => f

/-- The bit of pulse `k` in the frame buffer (R94). -/
def Frame.pulseBit (f : Frame) (k : Nat) (p : Params := params) : Bool := (f.get (bytePos k p)).getLsbD (bitPos k p)

/-- The bit of pulse `k` is written at its place (R91, R94). -/
def Frame.place (f : Frame) (k : Nat) (v : Bool) (p : Params := params) : Frame := f.write (bytePos k p) (bitPos k p) v

/-- `Checksum()`: the 10-bit sum of the four data bytes, low 8 bits kept (R100). -/
def checksum (f : Frame) : Byte :=
  (f.byte1.setWidth 10 + f.byte2.setWidth 10 + f.byte3.setWidth 10 + f.byte4.setWidth 10).setWidth 8

/-- The marker check (R101). -/
def markerOk (p : Params) (f : Frame) : Bool := f.marker == p.markerValue

end Sys2Proof.Machine
end

