-- ==== Sys2Proof/Machine/Ops.lean ====
section
/-! DEFINITION. The operations shared by the meanings: the port operations (41_port_ops.md), FAIL and success
(60_exceptions.md R107, 44_validate.md R99), the start of a cycle (42_handshake.md R82), reset (70_reset_and_hazards.md
R126), and how the inputs of a step are sampled (20_memory.md R30 to R37). -/

namespace Sys2Proof.Machine

variable {w : Nat}

/-- A step's outcome with this model's state and reasons. -/
abbrev Outcome (w : Nat := counterWidth) := Host.Outcome (State w) Fault Refusal

/-- Two effects one after the other; a stop stays a stop. -/
def andThen (o : Outcome w) (f : State w → Outcome w) : Outcome w :=
  match o with
  | .next s => f s
  | .fault r => .fault r
  | .refused r => .refused r

/-- `STATE <- c` (R18, R20). -/
def goto (c : BitVec 3) (s : State w) : State w := { s with state := c }

/-- `T0 <- Now()` (R22, R75). -/
def stamp (s : State w) : State w := { s with t0 := s.now }

/-- `SetDirection(d)` (R77). -/
def setDirection (d : Direction) (s : State w) : State w := { s with oe := d }

/-- `SetLevel(v)` (R78). -/
def setLevel (v : Level) (s : State w) : State w := { s with out := v }

/-- `DriveLow`: level and direction change together (R80). -/
def driveLow (s : State w) : State w := setDirection .output (setLevel .low s)

/-- `Release`: direction and level change together (R80). -/
def release (s : State w) : State w := setLevel .high (setDirection .input s)

/-- `SampleLevel()` (R74). -/
def sampleLevel (s : State w) : Level := s.lvl

/-- A value is returned to whoever asked (log entry 3). -/
def answerWith (a : Answer w) (s : State w) : State w := { s with answer := a }

/-- The host reads an output (R66). -/
def askOutput (q : Query) (s : State w) : State w := answerWith (output q s) s

/-- The host reads `FRAME[0..5]`, at any time and without side effect (R32, R105). -/
def askFrame (s : State w) : State w := answerWith (.frame s.frame) s

/-- A cycle ends with the outcome `st`: `STATUS`, `DONE` and `STATE` are written, nothing else (R99, R107). -/
def finish (st : Status) (s : State w) : State w := { s with status := st, done := true, state := stIdle }

/-- `raise K`, the block's taking of an exception (R107). Nothing is saved; the return from it is the next `READ`
(`acceptRead`, R117). -/
def raise (k : ErrorKind) (s : State w) : State w := finish (.error k) s

/-- `READ` is accepted (R82): the result of the cycle before is cleared, the wake pulse begins. -/
def acceptRead (s : State w) : State w :=
  goto stRequestStart
    (stamp (driveLow { s with frame := Frame.zero, cnt := 0, status := .ok, done := false }))

/-- `rst = 1` (R126, R127): every register takes its reset value and `T0` an unspecified one. The counter, the line, the
parameters and the outside world are not touched (R128). -/
def resetBlock (s : State w) : State w :=
  { s with
    state := stIdle, cnt := 0, t0 := BitVec.ofNat w (Config.freeT0 s.draws), frame := Frame.zero,
    status := .ok, done := false, oe := .input, out := .high, draws := s.draws + 1 }

/-- The counter after `d` ticks (R36). -/
def advance (t : BitVec w) (d : Nat) : BitVec w := t + BitVec.ofNat w d

/-- The inputs of a step are sampled, once and together (R30, R38). -/
def latch (x : Sample) (s : State w) : State w :=
  { s with rst := x.rst, start := x.start, now := advance s.now x.ticks, lvl := x.lvl }

/-- The sample the outside world gives where none is queued: every input is free; the counter advances by one tick under
`SYNC1` and by any number of ticks under `ASYNC` (R16, R34, R36, R37). -/
def freeSample (p : Params) (n : Nat) : Sample where
  rst := Config.freeRst n
  start := Config.freeStart n
  ticks :=
    match p.sampling with
    | .sync1 => 1
    | .async => Config.freeTicks n
  lvl := if Config.freeLevel n then .high else .low

/-- What the outside world does next: the oldest queued event, or a free sample. -/
def nextEvent (p : Params) (s : State w) : Event × State w :=
  match s.inputs with
  | e :: rest => (e, { s with inputs := rest })
  | [] => (.sample (freeSample p s.draws), { s with draws := s.draws + 1 })

/-- The instruction a step runs: the rule that `STATE` selects (R81). -/
def fetch (s : State w) : Instr := decodeState s.state

/-- The inputs of a step in which the line has level `l` and `Elapsed()` is `e` (R46). The spec gives no `start` for the
samples of a pulse or of a frame; DESIGN CHOICE: `start` (and `rst`) stay as last sampled, so such a sample begins a
READ in `IDLE` if the last sampled `start` is 1 (log entry 8). -/
def sampleAt (e : BitVec w) (l : Level) (s : State w) : State w := { s with now := s.t0 + e, lvl := l }

end Sys2Proof.Machine
end

