-- ==== Sys2Proof/Machine/BitDecode.lean ====
section
/-! DEFINITION. The step rules of BIT_LOW and BIT_HIGH (43_bit_decode.md R89 to R95): each as a rule of an instance, and as
the instruction of the default instance. -/

namespace Sys2Proof.Machine

variable {w : Nat}

/-- Step rule of `BIT_LOW` (R90): the timeout is tested before the level (R115). -/
def bitLowRule (p : Params) (s : State w) : State w :=
  if p.tLow < (elapsed s).toNat then raise .stuckLow s
  else if sampleLevel s = .high then goto stBitHigh (stamp s)
  else s

/-- The state after the pulse `CNT`: the loop goes on, or it has decoded `N_PULSES` pulses (R95). -/
def afterPulse (p : Params) (cnt : BitVec 6) : BitVec 3 :=
  if cnt + 1 = BitVec.ofNat 6 p.nPulses then stValidate else stBitLow

/-- The falling edge that ends a pulse: the bit is classified and placed, the pulse counted (R91). -/
def endPulse (p : Params) (s : State w) : State w :=
  { s with
    frame := s.frame.place s.cnt.toNat (bitOf p (elapsed s)) p, cnt := s.cnt + 1, t0 := s.now
    state := afterPulse p s.cnt }

/-- Step rule of `BIT_HIGH` (R91): the timeout is tested before the level (R115). -/
def bitHighRule (p : Params) (s : State w) : State w :=
  if p.tHigh < (elapsed s).toNat then raise .stuckHigh s
  else if sampleLevel s = .low then endPulse p s
  else s

/-- `STEP_BIT_LOW` (R90). As a row it runs the rule whatever `STATE` holds: DESIGN CHOICE, log entry 24. -/
def execStepBitLow (s : State) : Outcome := .next (bitLowRule params s)

/-- `STEP_BIT_HIGH` (R91). As a row it runs the rule whatever `STATE` holds: DESIGN CHOICE, log entry 24. -/
def execStepBitHigh (s : State) : Outcome := .next (bitHighRule params s)

end Sys2Proof.Machine
end

