-- ==== Sys2Proof/Machine/Handshake.lean ====
section
/-! DEFINITION. The step rules of IDLE, REQUEST_START and AWAIT_RESPONSE (42_handshake.md R82, R83, R85): each as a rule of
an instance, and as the instruction of the default instance. -/

namespace Sys2Proof.Machine

variable {w : Nat}

/-- Step rule of `IDLE` (R82). -/
def idleRule (s : State w) : State w := if s.start then acceptRead s else s

/-- Step rule of `REQUEST_START` (R83). -/
def requestStartRule (p : Params) (s : State w) : State w :=
  if p.tWake ≤ (elapsed s).toNat then goto stAwaitResponse (stamp (release s)) else s

/-- Step rule of `AWAIT_RESPONSE` (R85): the timeout is tested before the level (R115). -/
def awaitResponseRule (p : Params) (s : State w) : State w :=
  if p.tResp < (elapsed s).toNat then raise .noResponse s
  else if sampleLevel s = .low then goto stBitLow (stamp s)
  else s

/-- `STEP_IDLE` (R82). As a row it runs the rule whatever `STATE` holds: DESIGN CHOICE, log entry 24. -/
def execStepIdle (s : State) : Outcome := .next (idleRule s)

/-- `STEP_REQUEST_START` (R83). As a row it runs the rule whatever `STATE` holds: DESIGN CHOICE, log entry 24. -/
def execStepRequestStart (s : State) : Outcome := .next (requestStartRule params s)

/-- `STEP_AWAIT_RESPONSE` (R85). As a row it runs the rule whatever `STATE` holds: DESIGN CHOICE, log entry 24. -/
def execStepAwaitResponse (s : State) : Outcome := .next (awaitResponseRule params s)

end Sys2Proof.Machine
end

