-- ==== Sys2Proof/Machine/HostCommands.lean ====
section
/-! DEFINITION. The host's commands and queries (40_host_commands.md R65 to R71). -/

namespace Sys2Proof.Machine

/-- `READ`: `start = 1` presented in this step (R65). In `IDLE` it is accepted (R82); in any other state `start` is not
looked at and nothing happens (R68). -/
def execRead (s : State) : Outcome := .next (if s.state = stIdle then acceptRead s else s)

/-- `NOCMD`: `start = 0` presented in this step; nothing is written (R50, R82). -/
def execNocmd (s : State) : Outcome := .next s

/-- `BUSY?` (R27, R66). -/
def execBusyQ (s : State) : Outcome := .next (askOutput .busy s)

/-- `DONE?` (R25, R66). -/
def execDoneQ (s : State) : Outcome := .next (askOutput .done s)

/-- `VALID?` (R27, R66). -/
def execValidQ (s : State) : Outcome := .next (askOutput .valid s)

/-- `STATUS?` (R24, R66). -/
def execStatusQ (s : State) : Outcome := .next (askOutput .status s)

/-- `RESULT?` (R28, R66). -/
def execResultQ (s : State) : Outcome := .next (askOutput .result s)

end Sys2Proof.Machine
end

