-- ==== Sys2Proof/Machine/Outcomes.lean ====
section
/-! DEFINITION. The outcomes of a cycle as instructions: what the block does when it ends a cycle with that code (60_exceptions.md R105 to R112, 44_validate.md R99), and the reserved codes of STATE and STATUS (30_encoding.md R54). -/

namespace Sys2Proof.Machine

/-- `OK`: the success exit of a cycle (R99, source step 5). -/
def execOk (s : State) : Outcome := .next (finish .ok s)

/-- `NoResponse`: `raise NoResponse` (R107, R108). -/
def execNoResponse (s : State) : Outcome := .next (raise .noResponse s)

/-- `StuckLow`: `raise StuckLow` (R107, R109). -/
def execStuckLow (s : State) : Outcome := .next (raise .stuckLow s)

/-- `StuckHigh`: `raise StuckHigh` (R107, R110). -/
def execStuckHigh (s : State) : Outcome := .next (raise .stuckHigh s)

/-- `MissingStartMarker`: `raise MissingStartMarker` (R107, R111). -/
def execMissingStartMarker (s : State) : Outcome := .next (raise .missingStartMarker s)

/-- `ChecksumMismatch`: `raise ChecksumMismatch` (R107, R112). -/
def execChecksumMismatch (s : State) : Outcome := .next (raise .checksumMismatch s)

/-- `STATE` code 6: no step rule exists (R81, U6). -/
def execReservedState110 (_ : State) : Outcome := .refused (.reservedState 6)

/-- `STATE` code 7: no step rule exists (R81, U6). -/
def execReservedState111 (_ : State) : Outcome := .refused (.reservedState 7)

/-- `STATUS` code 6: reserved, never written (R24, U7). -/
def execReservedStatus110 (_ : State) : Outcome := .refused (.reservedStatus 6)

/-- `STATUS` code 7: reserved, never written (R24, U7). -/
def execReservedStatus111 (_ : State) : Outcome := .refused (.reservedStatus 7)

end Sys2Proof.Machine
end

