-- ==== Sys2Proof/Machine/PortOps.lean ====
section
/-! DEFINITION. The port operations as instructions (41_port_ops.md R73 to R78). -/

namespace Sys2Proof.Machine

/-- `setDirection(d)`: `OE <- d` (R77). -/
def execSetDirection (d : Direction) (s : State) : Outcome := .next (setDirection d s)

/-- `setLevel(v)`: `OUT <- v` (R78). -/
def execSetLevel (v : Level) (s : State) : Outcome := .next (setLevel v s)

/-- `readLevel()`: the level of the line sampled in this step is returned (R74). While `OE = 1` the value is the
environment's, any value (R34, U9). -/
def execReadLevel (s : State) : Outcome := .next (answerWith (.level (sampleLevel s)) s)

/-- `now()`: the counter value sampled in this step is returned (R75). -/
def execNow (s : State) : Outcome := .next (answerWith (.time s.now) s)

end Sys2Proof.Machine
end

