-- ==== Sys2Proof/Machine/Validate.lean ====
section
/-! DEFINITION. The step rule of VALIDATE (44_validate.md R98 to R104), as a rule of an instance and as the instruction of
the default instance. -/

namespace Sys2Proof.Machine

/-- Step rule of `VALIDATE` (R99): the marker is checked before the checksum (R116). -/
def validateRule {w : Nat} (p : Params) (s : State w) : State w :=
  if !markerOk p s.frame then raise .missingStartMarker s
  else if checksum s.frame ≠ s.frame.byte5 then raise .checksumMismatch s
  else finish .ok s

/-- `STEP_VALIDATE` (R99). As a row it runs the rule whatever `STATE` holds: DESIGN CHOICE, log entry 24. -/
def execStepValidate (s : State) : Outcome := .next (validateRule params s)

end Sys2Proof.Machine
end

