-- ==== Sys2Proof/Machine/Waveform.lean ====
section
/-! DEFINITION. One step of the block as a function of its state and its sampled inputs (42_handshake.md R81), and what
the block does with a pulse and with a frame: the step rules applied to the samples that a pulse is measured by
(30_encoding.md R46 to R49). -/

namespace Sys2Proof.Machine

variable {w : Nat}

/-- The step rule that `STATE` selects, applied to the inputs as sampled (R30, R81): a step of the block of the instance
`p`. The codes 6 and 7 have no rule (U6). -/
def blockStep (p : Params) (s : State w) : Outcome w :=
  match s.state.toNat with
  | 0 => .next (idleRule s)
  | 1 => .next (requestStartRule p s)
  | 2 => .next (awaitResponseRule p s)
  | 3 => .next (bitLowRule p s)
  | 4 => .next (bitHighRule p s)
  | 5 => .next (validateRule p s)
  | _ => .refused (.reservedState s.state)

/-- A pulse whose phases measure `lm` and `hm` (R46): the step that first samples it high, with `Elapsed() = lm`, and the
step that first samples it low again, with `Elapsed() = hm`. The samples between them write nothing (R90, R91). -/
def receivePulse (p : Params) (lm hm : BitVec w) (s : State w) : Outcome w :=
  andThen (blockStep p (sampleAt lm .high s)) fun t => blockStep p (sampleAt hm .low t)

/-- `BIT0`: a pulse whose high phase is at most `T_ONE` (R47, R93). -/
def execBit0 (lm hm : Time) (s : State) : Outcome := receivePulse params lm hm s

/-- `BIT1`: a pulse whose high phase is over `T_ONE` and at most `T_HIGH` (R47, R93). -/
def execBit1 (lm hm : Time) (s : State) : Outcome := receivePulse params lm hm s

/-- `LOW_TOO_LONG`: a sample with `Elapsed()` over `T_LOW` in a low phase, whatever its level (R47, R90, R109). -/
def execLowTooLong (e : Time) (l : Level) (s : State) : Outcome := blockStep params (sampleAt e l s)

/-- `HIGH_TOO_LONG`: a sample with `Elapsed()` over `T_HIGH` in a high phase, whatever its level (R47, R91, R110). -/
def execHighTooLong (e : Time) (l : Level) (s : State) : Outcome := blockStep params (sampleAt e l s)

/-- The length of the low phase of the `n`-th drawn pulse: a free value among the lengths the block accepts (R47). -/
def anyLow (p : Params) (n : Nat) : BitVec w := BitVec.ofNat w (Config.freeLow n % (p.tLow + 1))

/-- The length of the high phase of the `n`-th drawn pulse: a free value among the lengths that decode as `b` (R47). -/
def anyHigh (p : Params) (n : Nat) (b : Bool) : BitVec w :=
  if b then BitVec.ofNat w (p.tOne + 1 + Config.freeHigh n % (p.tHigh - p.tOne))
  else BitVec.ofNat w (Config.freeHigh n % (p.tOne + 1))

/-- The eight bits of a byte in order of arrival, bit 7 first (R40, R48). -/
def byteBits (b : Byte) : List Bool := (List.range 8).map fun i => b.getLsbD (7 - i)

/-- The bits of a frame in order of arrival (R48). -/
def frameBits (h f t g c : Byte) : List Bool :=
  true :: (byteBits h ++ byteBits f ++ byteBits t ++ byteBits g ++ byteBits c)

/-- One pulse for each bit, each phase of a free length that decodes as that bit. -/
def receiveBits (p : Params) : List Bool → State w → Outcome w
  | [], s => .next s
  | b :: bs, s =>
    andThen (receivePulse p (anyLow p s.draws) (anyHigh p s.draws b) { s with draws := s.draws + 1 }) (receiveBits p bs)

/-- `FRAME`: the sample of this step is the first low sample of pulse 0 (in `AWAIT_RESPONSE`, the acknowledgment: R49), and
the 41 pulses of the frame follow (R48), their phases of free lengths and `start` as last sampled (log entries 8, 9). -/
def execFrame (h f t g c : Byte) (s : State) : Outcome :=
  andThen (blockStep params { s with lvl := .low }) (receiveBits params (frameBits h f t g c))

/-- A frame on the line by the samples at its edges: the first low sample, then the first high and the first low sample
of each pulse, a 0 with the phases of `Z` and a 1 with those of `O` (R46, R48, R56). -/
def frameSamples (w : BitVec 41) : List Event :=
  let edge (d : Nat) (l : Level) : Event := .sample { rst := false, start := false, ticks := d, lvl := l }
  edge 1 .low ::
    (List.range 41).flatMap fun k => [edge 50 .high, edge (if w.getLsbD (40 - k) then 150 else 60) .low]

end Sys2Proof.Machine
end

