-- ==== Sys2Proof/Machine/Dispatch.lean ====
section
/-! DEFINITION. The meaning of every instruction: one arm per constructor. -/

namespace Sys2Proof.Machine

def exec (i : Instr) (s : State) : Host.Outcome State Fault Refusal :=
  match i with
  | .read => Sys2Proof.Machine.execRead s
  | .nocmd => Sys2Proof.Machine.execNocmd s
  | .busyQ => Sys2Proof.Machine.execBusyQ s
  | .doneQ => Sys2Proof.Machine.execDoneQ s
  | .validQ => Sys2Proof.Machine.execValidQ s
  | .statusQ => Sys2Proof.Machine.execStatusQ s
  | .resultQ => Sys2Proof.Machine.execResultQ s
  | .stepIdle => Sys2Proof.Machine.execStepIdle s
  | .stepRequestStart => Sys2Proof.Machine.execStepRequestStart s
  | .stepAwaitResponse => Sys2Proof.Machine.execStepAwaitResponse s
  | .stepBitLow => Sys2Proof.Machine.execStepBitLow s
  | .stepBitHigh => Sys2Proof.Machine.execStepBitHigh s
  | .stepValidate => Sys2Proof.Machine.execStepValidate s
  | .reservedState110 => Sys2Proof.Machine.execReservedState110 s
  | .reservedState111 => Sys2Proof.Machine.execReservedState111 s
  | .setDirection d => Sys2Proof.Machine.execSetDirection d s
  | .setLevel v => Sys2Proof.Machine.execSetLevel v s
  | .readLevel => Sys2Proof.Machine.execReadLevel s
  | .now => Sys2Proof.Machine.execNow s
  | .bit0 lm hm => Sys2Proof.Machine.execBit0 lm hm s
  | .bit1 lm hm => Sys2Proof.Machine.execBit1 lm hm s
  | .lowTooLong e l => Sys2Proof.Machine.execLowTooLong e l s
  | .highTooLong e l => Sys2Proof.Machine.execHighTooLong e l s
  | .frame h f t g c => Sys2Proof.Machine.execFrame h f t g c s
  | .ok => Sys2Proof.Machine.execOk s
  | .noResponse => Sys2Proof.Machine.execNoResponse s
  | .stuckLow => Sys2Proof.Machine.execStuckLow s
  | .stuckHigh => Sys2Proof.Machine.execStuckHigh s
  | .missingStartMarker => Sys2Proof.Machine.execMissingStartMarker s
  | .checksumMismatch => Sys2Proof.Machine.execChecksumMismatch s
  | .reservedStatus110 => Sys2Proof.Machine.execReservedStatus110 s
  | .reservedStatus111 => Sys2Proof.Machine.execReservedStatus111 s

end Sys2Proof.Machine
end

