-- ==== Sys2Proof/Machine/Instance.lean ====
section
/-! DEFINITION. One step of the machine of any instance (00_scope.md R17): the parameter record is an argument, and the
default instance is the machine that `step` runs. -/

namespace Sys2Proof.Machine

variable {w : Nat}

/-- What a step does with the event `e`: a read of the host is answered (R32, R66); a sample is latched, and then `rst`
resets the block (R126; log entry 20) or the step rule that `STATE` selects runs (R30, R81). -/
def stepEvent (p : Params) (e : Event) (s : State w) : Outcome w :=
  match e with
  | .ask q => .next (askOutput q s)
  | .askFrame => .next (askFrame s)
  | .sample x => if x.rst then .next (resetBlock (latch x s)) else blockStep p (latch x s)

/-- One step of the instance `p`, whose counter has `w = p.width` bits. -/
def stepOf (p : Params) (s : State w) : Outcome w := stepEvent p (nextEvent p s).1 (nextEvent p s).2

end Sys2Proof.Machine
end

