-- ==== Sys2Proof/Machine/Step.lean ====
section
/-! DEFINITION. One step of the machine: the next event of the outside world is taken; a read of the host is answered; a
sample is latched, and then `rst` resets the block (70_reset_and_hazards.md R126) or the step rule that `STATE` selects
runs (20_memory.md R30, 42_handshake.md R81). -/

namespace Sys2Proof.Machine

/-- One step: the step of the default instance. That it is `exec` of the instruction `STATE` decodes to, or of the query,
is `step_sample_exec` and `step_ask_exec` in Laws/Ops.lean. -/
def step (s : State) : Host.Outcome State Fault Refusal := stepOf params s

/-- The sample that lets the fetched instruction run: no reset, one tick (`SYNC1`), the line as it stands. -/
def State.fetchSample (s : State) (start : Bool) : Event :=
  .sample { rst := false, start := start, ticks := 1, lvl := s.lvl }

/-- `s` with a table word where `step` takes its next instruction (log entry 4). The block fetches no instruction words
(R44): what selects the instruction is `STATE` for a step rule, and `start` in `IDLE` for a host command. A frame is what
the sensor sends and takes 83 steps: it is put on the line of a block that has just released it. -/
def State.withFetchWord (s : State) (nbits w : Nat) : State :=
  match tableCode nbits w with
  | some (.host1 b) => { s with state := stIdle, inputs := s.fetchSample (b == 1) :: s.inputs }
  | some (.code3 c) => { s with state := c, inputs := s.fetchSample s.start :: s.inputs }
  | some (.frame41 bits) =>
    { s with
      state := stAwaitResponse, cnt := 0, t0 := s.now, frame := Frame.zero
      inputs := frameSamples bits ++ s.inputs }
  | _ => s

end Sys2Proof.Machine
end

