-- ==== Sys2Proof/Machine/Trace.lean ====
section
/-! DEFINITION. Environments: the written form of bus traces (30_encoding.md R56), what `SYNC1` asks of the queued inputs
(20_memory.md R37), and runs of several steps. -/

namespace Sys2Proof.Machine

/-- `n` steps, stopping at the first refusal. -/
def run (n : Nat) (s : State) : Outcome := Sys2Proof.core.run n s

/-- A step of the block on a queued sample without `rst`, one tick after the sample before (`SYNC1`, R37). -/
def Event.isTick : Event → Bool
  | .sample x => !x.rst && x.ticks == 1
  | .ask _ => false
  | .askFrame => false

/-- One sample under `SYNC1`, no command, the line at level `l` (R56). -/
def lineSample (l : Level) : Event := .sample { rst := false, start := false, ticks := 1, lvl := l }

/-- `Hn` (R56). -/
def highs (n : Nat) : List Event := List.replicate n (lineSample .high)

/-- `Ln` (R56). -/
def lows (n : Nat) : List Event := List.replicate n (lineSample .low)

/-- A pulse by the numbers of its low and of its high samples (R46, R56). -/
structure Pulse where
  low : Nat
  high : Nat
  deriving DecidableEq, Repr

/-- `Z = L50 H60` (R56). -/
def Pulse.zero : Pulse := ⟨50, 60⟩

/-- `O = L50 H150` (R56). -/
def Pulse.one : Pulse := ⟨50, 150⟩

/-- The samples of a pulse. -/
def Pulse.samples (p : Pulse) : List Event := lows p.low ++ highs p.high

/-- The bit a pulse decodes as (R47, R93). -/
def Pulse.bit (p : Pulse) : Bool := 110 < p.high

/-- A pulse the block decodes under `SYNC1`: both phases are there and within their limits (R47). -/
def Pulse.accepted (p : Pulse) : Bool := 1 ≤ p.low && p.low ≤ 100 && 1 ≤ p.high && p.high ≤ 200

/-- The samples of consecutive pulses. -/
def pulseSamples (ps : List Pulse) : List Event := ps.flatMap Pulse.samples

/-- How many samples consecutive pulses take: the sum of their `Lm + Hm` (R140). -/
def pulseTicks (ps : List Pulse) : Nat := (ps.map fun p => p.low + p.high).sum

/-- `bits(b)` (R56). -/
def bytePulses (b : Byte) : List Pulse := (byteBits b).map fun v => if v then Pulse.one else Pulse.zero

/-- `frame(m; b1 b2 b3 b4 b5)` (R56). -/
def framePulses (m : Bool) (b1 b2 b3 b4 b5 : Byte) : List Pulse :=
  (if m then Pulse.one else Pulse.zero) ::
    (bytePulses b1 ++ bytePulses b2 ++ bytePulses b3 ++ bytePulses b4 ++ bytePulses b5)

/-- `H(a-1) <pulses> Ln` (R56): the acknowledgment is first seen at sample `a`. -/
def traceOf (a : Nat) (ps : List Pulse) (n : Nat) : List Event := highs (a - 1) ++ pulseSamples ps ++ lows n

end Sys2Proof.Machine
end

