-- ==== Sys2Proof/Safety.lean ====
section
/-! DEFINITION. What the spec promises of every state reachable from reset (10_state.md R23, R24, R29), as an invariant
over all states. -/

namespace Sys2Proof.Machine

/-- The invariants of R29, with what R23 and R24 say beside them (a frame bit not yet received is 0; `STATUS` is 0 while
no cycle has finished) and what makes them hold from one step to the next. -/
structure State.Inv (s : State) : Prop where
  /-- R29 item 1. -/
  drives_iff : s.oe = .output ↔ s.state = stRequestStart
  /-- R29 item 2. -/
  drives_low : s.oe = .output → s.out = .low
  /-- R29 item 3, and the same in every state in which the pin is an input. -/
  rests_high : s.oe = .input → s.out = .high
  /-- R29 items 4 and 5. -/
  done_idle : s.done = true → s.state = stIdle
  /-- R29 item 6. -/
  valid_frame : valid s = true →
    s.frame.marker = 1 ∧
      (s.frame.byte1.toNat + s.frame.byte2.toNat + s.frame.byte3.toNat + s.frame.byte4.toNat) % 256 =
        s.frame.byte5.toNat ∧
      s.cnt = 41
  /-- R29 item 7. -/
  cnt_le : s.cnt.toNat ≤ 41
  /-- R29 item 7. -/
  cnt_loop : s.state = stBitLow ∨ s.state = stBitHigh → s.cnt.toNat ≤ 40
  /-- R29 item 7. -/
  cnt_validate : s.state = stValidate → s.cnt = 41
  /-- R85: "`CNT` is 0 and stays 0" until the loop is entered. -/
  cnt_start : s.state = stRequestStart ∨ s.state = stAwaitResponse → s.cnt = 0
  /-- R29 item 8; `STATUS` holds one of its six members by its type. -/
  state_legal : s.state.toNat ≤ 5
  /-- R24: no cycle has finished since reset or since `start` was accepted. -/
  status_ok : s.done = false → s.status = .ok
  /-- R23: 0 in every bit not yet received. -/
  unreceived : ∀ k, s.cnt.toNat ≤ k → k < 41 → s.frame.pulseBit k = false
  /-- R48: bits 7 to 1 of `FRAME[0]` stay 0. -/
  marker_le : s.frame.marker.toNat ≤ 1

/-- The invariants of R29 for any instance (R17): its own marker value and its own number of pulses. -/
structure State.InvOf {w : Nat} (p : Params) (s : State w) : Prop where
  /-- R29 item 1. -/
  drives_iff : s.oe = .output ↔ s.state = stRequestStart
  /-- R29 item 2. -/
  drives_low : s.oe = .output → s.out = .low
  /-- R29 item 3. -/
  rests_high : s.oe = .input → s.out = .high
  /-- R29 items 4 and 5. -/
  done_idle : s.done = true → s.state = stIdle
  /-- R29 item 6. -/
  valid_frame : valid s = true →
    s.frame.marker = p.markerValue ∧ checksum s.frame = s.frame.byte5 ∧ s.cnt.toNat = p.nPulses
  /-- R29 item 7. -/
  cnt_le : s.cnt.toNat ≤ p.nPulses
  /-- R29 item 7. -/
  cnt_loop : s.state = stBitLow ∨ s.state = stBitHigh → s.cnt.toNat < p.nPulses
  /-- R29 item 7. -/
  cnt_validate : s.state = stValidate → s.cnt.toNat = p.nPulses
  /-- R85: "`CNT` is 0 and stays 0" until the loop is entered. -/
  cnt_start : s.state = stRequestStart ∨ s.state = stAwaitResponse → s.cnt = 0
  /-- R29 item 8. -/
  state_legal : s.state.toNat ≤ 5
  /-- R24: no cycle has finished since reset or since `start` was accepted. -/
  status_ok : s.done = false → s.status = .ok

/-- The ticks since `T0` as a number: `(Now() - T0) mod 2^16` (R76). -/
def State.ticksSince (s : State) : Nat := (s.now.toNat + 65536 - s.t0.toNat) % 65536

/-- Two states that only the absolute value of the counter tells apart: `d` is added to `now`, and to `T0` wherever the
rules may read it; in `IDLE` nothing reads `T0` (R22, R36). -/
structure State.Shifted (d : Time) (s s' : State) : Prop where
  rest : s' = { s with now := s.now + d, t0 := s'.t0 }
  stamp : s.state ≠ stIdle → s'.t0 = s.t0 + d

/-- A safe run keeps the pin safe: the block never drives the line high (R26, R54). -/
def State.PinSafe (s : State) : Prop := ¬ (s.oe = .output ∧ s.out = .high)

end Sys2Proof.Machine
end

