-- ==== Sys2Proof/Certificates/Slice0/Obligations.lean ====
section
/-! DEFINITION. The statements about the model, for the provers. -/

open Sys2Proof Sys2Proof.Machine

/-! ## Encodings -/

/-- Decoding the code of a well-formed instruction gives the instruction back, with every operand (R57). -/
def Obligations.DecodeOfEncodeIsTheInstruction : Prop :=
  ∀ i : Instr, i.wf = true → decode (encode i) = .ok i

/-- Every code that decodes is the code of the instruction it decodes to, and that instruction is well formed (R54, R57). -/
def Obligations.EncodeOfDecodeIsTheCode : Prop :=
  ∀ (c : Code) (i : Instr), decode c = .ok i → encode i = c ∧ i.wf = true

/-- Codes written out from the opcode table decode to their rows (R48, R50, R57). -/
def Obligations.WrittenOutCodesDecode : Prop :=
  decode (.host1 0b1) = .ok .read ∧
  decode (.code3 0b011) = .ok .stepBitLow ∧
  decode (.status3 0b101) = .ok .checksumMismatch ∧
  decode (.portop (.oe 0b1)) = .ok (.setDirection .output) ∧
  decode (.pulse (.measured 50 150)) = .ok (.bit1 50 150) ∧
  decode (.frame41 0b1_00100011_00000000_00010100_00000000_00110111) = .ok (.frame 0x23 0x00 0x14 0x00 0x37) ∧
  decode (.frame41 0b0_00100011_00000000_00010100_00000000_00110111) = .error .markerNotOne

/-- The measured lengths of a pulse are partitioned into its classes (R47): 0 to 110 is a 0, 111 to 200 is a 1, beyond
is no pulse; a sample is a low phase too long exactly over 100 and a high phase too long exactly over 200. -/
def Obligations.MeasuredLengthsArePartitioned : Prop :=
  (∀ lm hm : Time, lm.toNat ≤ 100 →
    decode (.pulse (.measured lm hm)) =
      if hm.toNat ≤ 110 then .ok (.bit0 lm hm)
      else if hm.toNat ≤ 200 then .ok (.bit1 lm hm)
      else .error .highPhaseOverLimit) ∧
  (∀ lm hm : Time, 100 < lm.toNat → decode (.pulse (.measured lm hm)) = .error .lowPhaseOverLimit) ∧
  (∀ (e : Time) (l : Level),
    (decode (.pulse (.lowSample e l)) = .ok (.lowTooLong e l) ↔ 101 ≤ e.toNat) ∧
    (decode (.pulse (.highSample e l)) = .ok (.highTooLong e l) ↔ 201 ≤ e.toNat))

/-! ## The step -/

/-- On a sample without `rst` a step is `exec` of the instruction that `STATE` decodes to, on the state with the sample
taken from the queue and latched into the input ports, the counter having advanced by the sample's ticks (R30, R81). The
queue `inputs` is the model's choice (log entry 2). -/
def Obligations.StepRunsTheRuleThatStateSelects : Prop :=
  ∀ (s : State) (x : Sample) (es : List Event) (i : Instr),
    s.inputs = .sample x :: es → x.rst = false → decode (.code3 s.state) = .ok i →
    step s = exec i
      { s with inputs := es, rst := false, start := x.start, now := s.now + BitVec.ofNat 16 x.ticks, lvl := x.lvl }

/-- Where the host reads an output, the step is `exec` of that query (R32, R66). That a query is a step of the machine in
which the block takes no step and the counter does not advance is the model's choice (log entry 5). -/
def Obligations.StepAnswersTheHost : Prop :=
  ∀ (s : State) (q : Query) (es : List Event), s.inputs = .ask q :: es →
    step s = exec q.instr { s with inputs := es }

/-- The host reads the six bytes of `FRAME`, in every state, and nothing but the returned value changes (R32, R105). That
the read is a step of the machine in which the block takes no step, and that the returned value is held in a field of
its own, is the model's choice (log entries 3, 5). -/
def Obligations.FrameReadReturnsTheRegisters : Prop :=
  ∀ (s : State) (es : List Event), s.inputs = .askFrame :: es →
    step s = .next { s with inputs := es, answer := .frame s.frame }

/-- Where no input is queued, the step is a step on some sample, one tick later under the default `SAMPLING` (R16, R34,
R37). Which sample, nothing says; that it comes from the draw counter is the model's choice (log entry 2). -/
def Obligations.StepWithoutQueuedInputTakesSomeSample : Prop :=
  ∀ s : State, s.inputs = [] → ∃ x : Sample, x.ticks = 1 ∧
    step s = step { s with inputs := [.sample x], draws := s.draws + 1 }

/-- `rst = 1` puts every register at its reset value, in any state and whatever `start` is; `T0` is left open, and
`BUSY`, `VALID` and `RESULT` follow (R126, R127); the counter is not touched by it (R128). That `rst` acts synchronously
with a latched sample, the counter advancing by its ticks, is the model's choice (log entry 20), and so are the fields
`inputs` and `draws` (log entries 5, 7). -/
def Obligations.RstResetsEveryRegister : Prop :=
  ∀ (s : State) (x : Sample) (es : List Event), s.inputs = .sample x :: es → x.rst = true →
    ∃ (t0 : Time) (n : Nat) (t : State),
      step s = .next t ∧
      t = { s with
            state := 0, cnt := 0, t0 := t0, frame := ⟨0, 0, 0, 0, 0, 0⟩, status := .ok, done := false
            oe := .input, out := .high
            inputs := es, rst := true, start := x.start, now := s.now + BitVec.ofNat 16 x.ticks, lvl := x.lvl
            draws := n } ∧
      busy t = false ∧ valid t = false ∧ result t = .none

/-- After reset no cycle is in flight, there is no result, and the pin is an input (R126). -/
def Obligations.ResetLeavesTheBlockIdle : Prop :=
  State.reset.state = 0 ∧ State.reset.cnt = 0 ∧ State.reset.frame = ⟨0, 0, 0, 0, 0, 0⟩ ∧ State.reset.status.code = 0 ∧
  State.reset.done = false ∧ State.reset.oe.toBit = 0 ∧ State.reset.out.toBit = 1 ∧
  busy State.reset = false ∧ valid State.reset = false ∧ result State.reset = .none

/-! ## Host commands and queries -/

/-- The step rule of `IDLE`: `start = 1` clears the last result, stamps `T0` and begins to drive the line low; `start = 0`
writes nothing (R82). That the row does so whatever `STATE` holds is the model's choice (log entry 24). -/
def Obligations.IdleStepAcceptsStart : Prop :=
  ∀ s : State,
    exec .stepIdle s = .next
      (if s.start then
        { s with
          frame := ⟨0, 0, 0, 0, 0, 0⟩, cnt := 0, status := .ok, done := false, out := .low, oe := .output,
          t0 := s.now, state := 1 }
      else s)

/-- `READ` in `IDLE` begins a cycle, `READ` while `BUSY = 1` has no effect; `NOCMD` writes nothing (R50, R65, R68, R82). -/
def Obligations.ReadBeginsACycleInIdleOnly : Prop :=
  ∀ s : State,
    (busy s = false → exec .read s = .next
      { s with
        frame := ⟨0, 0, 0, 0, 0, 0⟩, cnt := 0, status := .ok, done := false, out := .low, oe := .output,
        t0 := s.now, state := 1 }) ∧
    (busy s = true → exec .read s = .next s) ∧
    exec .nocmd s = .next s

/-- Each query returns its output and changes nothing else (R27, R28, R66). That the returned value is held in a field of
its own is the model's choice (log entry 3). -/
def Obligations.QueriesReturnTheirOutput : Prop :=
  ∀ s : State,
    exec .busyQ s = .next { s with answer := .bit (decide (s.state.toNat ≠ 0)) } ∧
    exec .doneQ s = .next { s with answer := .bit s.done } ∧
    exec .validQ s = .next { s with answer := .bit (decide (s.done = true ∧ s.status.code = 0)) } ∧
    exec .statusQ s = .next { s with answer := .code s.status.code } ∧
    exec .resultQ s = .next { s with answer := .result (
      if s.done = false then .none
      else match s.status with
        | .ok => .ok ⟨s.frame.byte1, s.frame.byte2, s.frame.byte3, s.frame.byte4, s.frame.byte5⟩
        | .error k => .err k) }

/-- The codes of `STATUS` (R24, R105). -/
def Obligations.StatusCodesAreTheTable : Prop :=
  Status.code .ok = 0 ∧ Status.code (.error .noResponse) = 1 ∧ Status.code (.error .stuckLow) = 2 ∧
  Status.code (.error .stuckHigh) = 3 ∧ Status.code (.error .missingStartMarker) = 4 ∧
  Status.code (.error .checksumMismatch) = 5 ∧
  ∀ a b : Status, a.code = b.code → a = b

/-! ## Port operations and arithmetic -/

/-- The two writes set one pin register each and nothing else (R77, R78). That they do so as instructions of their own, in
every state, is the model's choice (log entry 21). -/
def Obligations.PinWritesSetTheirRegister : Prop :=
  ∀ s : State,
    (∀ d : Direction, exec (.setDirection d) s = .next { s with oe := d }) ∧
    (∀ v : Level, exec (.setLevel v) s = .next { s with out := v })

/-- The two reads return the input sampled in this step and change nothing (R74, R75). That the returned value is held in
a field of its own is the model's choice (log entry 3), and so is what `readLevel` returns while `OE = 1`, where R74
calls it undefined: the level the environment supplies (log entry 12). -/
def Obligations.PortReadsReturnTheInput : Prop :=
  ∀ s : State,
    exec .readLevel s = .next { s with answer := .level s.lvl } ∧
    exec .now s = .next { s with answer := .time s.now }

/-- `Elapsed()` is the difference modulo `2^16`, and it is the number of ticks since `T0` was written, modulo `2^16`
(R76). -/
def Obligations.ElapsedCountsTicksModuloTheWidth : Prop :=
  ∀ s : State, (elapsed s).toNat = s.ticksSince ∧
    ∀ d : Nat, s.now = s.t0 + BitVec.ofNat 16 d → (elapsed s).toNat = d % 65536

/-! ## The step rules

`STATE` selects the rule (R81). That the row of a rule, executed as an instruction, carries the rule out whatever `STATE`
holds is the model's choice (log entry 24); the statements below are about every state. -/

/-- The step rule of `REQUEST_START`: from 18000 ticks on the line is released and `T0` rewritten; before, nothing is
written (R83). In a state other than `REQUEST_START`: the model's choice (log entry 24). -/
def Obligations.RequestStartHoldsThenReleases : Prop :=
  ∀ s : State,
    (18000 ≤ s.ticksSince →
      exec .stepRequestStart s = .next { s with oe := .input, out := .high, t0 := s.now, state := 2 }) ∧
    (s.ticksSince < 18000 → exec .stepRequestStart s = .next s)

/-- The step rule of `AWAIT_RESPONSE`: over 100 ticks `NoResponse`, whatever the level; otherwise a low sample is the
acknowledgment and a high one is waited out (R85). In a state other than `AWAIT_RESPONSE`: the model's choice (log
entry 24). -/
def Obligations.AwaitResponseTakesTheAcknowledgment : Prop :=
  ∀ s : State,
    (100 < s.ticksSince →
      exec .stepAwaitResponse s = .next { s with status := .error .noResponse, done := true, state := 0 }) ∧
    (s.ticksSince ≤ 100 → s.lvl = .low → exec .stepAwaitResponse s = .next { s with t0 := s.now, state := 3 }) ∧
    (s.ticksSince ≤ 100 → s.lvl = .high → exec .stepAwaitResponse s = .next s)

/-- The step rule of `BIT_LOW`: over 100 ticks `StuckLow`, whatever the level; otherwise a high sample begins the high
phase and a low one is waited out (R90). In a state other than `BIT_LOW`: the model's choice (log entry 24). -/
def Obligations.BitLowWaitsForTheRisingEdge : Prop :=
  ∀ s : State,
    (100 < s.ticksSince →
      exec .stepBitLow s = .next { s with status := .error .stuckLow, done := true, state := 0 }) ∧
    (s.ticksSince ≤ 100 → s.lvl = .high → exec .stepBitLow s = .next { s with t0 := s.now, state := 4 }) ∧
    (s.ticksSince ≤ 100 → s.lvl = .low → exec .stepBitLow s = .next s)

/-- The step rule of `BIT_HIGH` in the states the loop can be in (`CNT <= 40`: R29 item 7): over 200 ticks `StuckHigh`,
whatever the level, and no bit written; otherwise a low sample writes the bit of pulse `CNT` at its place, the other 47
bits keeping their values, counts the pulse, stamps `T0` and goes on to the next low phase or, after the 41st pulse, to
`VALIDATE`; a high sample is waited out (R91, R93, R94). In a state other than `BIT_HIGH`: the model's choice (log
entry 24). -/
def Obligations.BitHighDecodesThePulse : Prop :=
  ∀ s : State, s.cnt.toNat ≤ 40 →
    (200 < s.ticksSince →
      exec .stepBitHigh s = .next { s with status := .error .stuckHigh, done := true, state := 0 }) ∧
    (s.ticksSince ≤ 200 → s.lvl = .high → exec .stepBitHigh s = .next s) ∧
    (s.ticksSince ≤ 200 → s.lvl = .low →
      ∃ f : Frame,
        exec .stepBitHigh s = .next
          { s with
            frame := f, cnt := s.cnt + 1, t0 := s.now, state := if s.cnt.toNat = 40 then 5 else 3 } ∧
        ∀ i p : Nat, i < 6 → p < 8 →
          (f.get i).getLsbD p =
            if i = (if s.cnt.toNat = 0 then 0 else 1 + (s.cnt.toNat - 1) / 8) ∧
                p = (if s.cnt.toNat = 0 then 0 else 7 - (s.cnt.toNat - 1) % 8)
            then decide (110 < s.ticksSince) else (s.frame.get i).getLsbD p)

/-- The model's choice where `CNT` is beyond the loop, which no reachable state is (log entry 6): no frame bit is selected,
so none is written; the rest is as in the loop, and `CNT` wraps in its 6 bits. In a state other than `BIT_HIGH`: the
model's choice as well (log entry 24). -/
def Obligations.BitHighBeyondTheLoopWritesNoFrameBit : Prop :=
  ∀ s : State, 41 ≤ s.cnt.toNat → s.ticksSince ≤ 200 → s.lvl = .low →
    exec .stepBitHigh s = .next { s with cnt := s.cnt + 1, t0 := s.now, state := 3 }

/-- The step rule of `VALIDATE`: the marker first, then the low 8 bits of the sum of the four data bytes against the fifth;
`STATUS`, `DONE` and `STATE` are written in all three cases, and nothing else (R99, R100, R101, R116). In a state other than
`VALIDATE`: the model's choice (log entry 24). -/
def Obligations.ValidateChecksMarkerThenChecksum : Prop :=
  ∀ s : State,
    exec .stepValidate s = .next
      { s with
        done := true, state := 0
        status :=
          if s.frame.marker.toNat ≠ 1 then .error .missingStartMarker
          else if (s.frame.byte1.toNat + s.frame.byte2.toNat + s.frame.byte3.toNat + s.frame.byte4.toNat) % 256 ≠
              s.frame.byte5.toNat then .error .checksumMismatch
          else .ok }

/-! ## Outcomes -/

/-- FAIL, for each error kind (R107), and the success exit (R99): `STATUS`, `DONE` and `STATE` are written and nothing
else; after an error `BUSY = 0`, `VALID = 0` and `RESULT` is that error. That the `status3` rows, as instructions, carry
this out in whatever state they are executed in is the model's choice (log entry 11). -/
def Obligations.OutcomesWriteStatusDoneState : Prop :=
  ∀ s : State,
    exec .noResponse s = .next { s with status := .error .noResponse, done := true, state := 0 } ∧
    exec .stuckLow s = .next { s with status := .error .stuckLow, done := true, state := 0 } ∧
    exec .stuckHigh s = .next { s with status := .error .stuckHigh, done := true, state := 0 } ∧
    exec .missingStartMarker s = .next { s with status := .error .missingStartMarker, done := true, state := 0 } ∧
    exec .checksumMismatch s = .next { s with status := .error .checksumMismatch, done := true, state := 0 } ∧
    exec .ok s = .next { s with status := .ok, done := true, state := 0 } ∧
    ∀ (k : ErrorKind) (t : State), t = { s with status := .error k, done := true, state := 0 } →
      busy t = false ∧ valid t = false ∧ result t = .err k

/-- The reserved codes have no behaviour: their rows stop by name, and so does a step of a block that holds one in `STATE`
(R20, R54, R81). -/
def Obligations.ReservedCodesAreRefused : Prop :=
  ∀ s : State,
    exec .reservedState110 s = .refused (.reservedState 6) ∧
    exec .reservedState111 s = .refused (.reservedState 7) ∧
    exec .reservedStatus110 s = .refused (.reservedStatus 6) ∧
    exec .reservedStatus111 s = .refused (.reservedStatus 7) ∧
    ∀ (x : Sample) (es : List Event), s.inputs = .sample x :: es → x.rst = false → 6 ≤ s.state.toNat →
      step s = .refused (.reservedState s.state)

/-! ## Pulses and frames -/

/-- `BIT0` and `BIT1` in `BIT_LOW`: one bit is written at the place of pulse `CNT`, the pulse is counted, and the block is
at the first low sample after the pulse (R46, R47, R91 to R95). That the row, executed as an instruction, sets the
counter to `T0` plus the two lengths whatever it showed before, and takes no queued sample, is the model's choice (log
entry 8). -/
def Obligations.PulseWritesItsBit : Prop :=
  ∀ (s : State) (lm hm : Time) (b : Bool), s.state = 3 → s.cnt.toNat ≤ 40 → lm.toNat ≤ 100 →
    (if b then 111 ≤ hm.toNat ∧ hm.toNat ≤ 200 else hm.toNat ≤ 110) →
    ∃ f : Frame,
      exec (if b then .bit1 lm hm else .bit0 lm hm) s = .next
        { s with
          frame := f, cnt := s.cnt + 1, now := s.t0 + lm + hm, t0 := s.t0 + lm + hm, lvl := .low
          state := if s.cnt.toNat = 40 then 5 else 3 } ∧
      ∀ i p : Nat, i < 6 → p < 8 →
        (f.get i).getLsbD p =
          if i = (if s.cnt.toNat = 0 then 0 else 1 + (s.cnt.toNat - 1) / 8) ∧
              p = (if s.cnt.toNat = 0 then 0 else 7 - (s.cnt.toNat - 1) % 8)
          then b else (s.frame.get i).getLsbD p

/-- `LOW_TOO_LONG` in `BIT_LOW` ends the cycle with `StuckLow`, `HIGH_TOO_LONG` in `BIT_HIGH` with `StuckHigh`, whatever
the level of the sample; beside the sampled inputs only `STATUS`, `DONE`, `STATE` are written (R47, R107, R109, R110).
That the row sets the counter to `T0` plus `e` whatever it showed before (log entry 8), and that it carries the level of
the sample (log entry 10), is the model's choice. -/
def Obligations.PhasesTooLongRaise : Prop :=
  ∀ (s : State) (e : Time) (l : Level),
    (s.state = 3 → 101 ≤ e.toNat → exec (.lowTooLong e l) s = .next
      { s with now := s.t0 + e, lvl := l, status := .error .stuckLow, done := true, state := 0 }) ∧
    (s.state = 4 → 201 ≤ e.toNat → exec (.highTooLong e l) s = .next
      { s with now := s.t0 + e, lvl := l, status := .error .stuckHigh, done := true, state := 0 })

/-- A pulse, a sample of a phase too long and a frame answer a next state from every legal state, and stop on a reserved
code. That such a row completes in a state it is not for is the model's choice (log entry 8); it rests on the step
function being total on legal states (R30). -/
def Obligations.WaveformsCompleteInEveryLegalState : Prop :=
  ∀ (s : State) (lm hm e : Time) (l : Level) (h f t g c : Byte) (i : Instr),
    i = .bit0 lm hm ∨ i = .bit1 lm hm ∨ i = .lowTooLong e l ∨ i = .highTooLong e l ∨ i = .frame h f t g c →
    (s.state.toNat ≤ 5 → ∃ u, exec i s = .next u) ∧
    (6 ≤ s.state.toNat → exec i s = .refused (.reservedState s.state))

/-- A frame whose first low sample comes in time is decoded whole, and validation returns its five bytes if the checksum
holds and `ChecksumMismatch` if not (R48, R49, R99, R104). That the sample of the present step is the first low one, and
that the lengths of the phases are drawn (`draws`) within their bands, is the model's choice (log entry 9); nothing in
Lean can evaluate a drawn length. Every choice of lengths is the subject of `TraceYieldsItsReading`. -/
def Obligations.FrameIsDecodedAndValidated : Prop :=
  ∀ (s : State) (h f t g c : Byte), s.Inv → s.ticksSince ≤ 100 → s.state = 2 ∨ (s.state = 3 ∧ s.cnt = 0) →
    ∃ u v : State,
      exec (.frame h f t g c) s = .next u ∧
      u = { s with
            state := 5, cnt := 41, frame := ⟨1, h, f, t, g, c⟩, lvl := .low, t0 := u.t0, now := u.t0, draws := u.draws } ∧
      exec .stepValidate u = .next v ∧
      result v = if c = h + f + t + g then .ok ⟨h, f, t, g, c⟩ else .err .checksumMismatch

/-- Under `SYNC1` a pulse sent sample by sample does what its row says: from the first low sample of the pulse to the first
low sample after it, as many steps as the two phases have samples (R46, R47, R90, R91). -/
def Obligations.PulseBySamplesIsItsRow : Prop :=
  ∀ (s : State) (p : Pulse) (rest : List Event), s.state = 3 → s.t0 = s.now → s.rst = false → s.start = false →
    p.accepted = true → s.inputs = lows (p.low - 1) ++ highs p.high ++ lineSample .low :: rest →
    run (p.low + p.high) s =
      exec (if p.bit then .bit1 (BitVec.ofNat 16 p.low) (BitVec.ofNat 16 p.high)
        else .bit0 (BitVec.ofNat 16 p.low) (BitVec.ofNat 16 p.high)) { s with inputs := rest }

/-- The whole cycle from the release of the line, under `SYNC1`: for every trace whose acknowledgment comes at sample
`a <= 100` and whose 41 pulses are within their limits, the cycle ends `a + (sum of all phases) + 1` steps after the
release step with every bit of the frame as sent, and with the outcome that marker and checksum give (R47, R49, R95, R99,
R104, R140). The queue `inputs` is the model's choice (log entry 2). -/
def Obligations.TraceYieldsItsReading : Prop :=
  ∀ (s : State) (a : Nat) (ps : List Pulse) (x : Sample) (rest : List Event),
    s.Inv → s.state = 2 → s.t0 = s.now → 1 ≤ a → a ≤ 100 → ps.length = 41 → (∀ p ∈ ps, p.accepted = true) →
    x.rst = false → s.inputs = traceOf a ps 1 ++ .sample x :: rest →
    ∃ t : State,
      run (a + pulseTicks ps + 1) s = .next t ∧
      t.state = 0 ∧ t.done = true ∧ t.cnt = 41 ∧ t.oe = .input ∧ t.out = .high ∧ t.inputs = rest ∧
      (∀ (k : Nat) (p : Pulse), ps[k]? = some p → t.frame.pulseBit k = p.bit) ∧
      result t =
        (if t.frame.marker ≠ 1 then .err .missingStartMarker
        else if (t.frame.byte1.toNat + t.frame.byte2.toNat + t.frame.byte3.toNat + t.frame.byte4.toNat) % 256 ≠
            t.frame.byte5.toNat then .err .checksumMismatch
        else .ok ⟨t.frame.byte1, t.frame.byte2, t.frame.byte3, t.frame.byte4, t.frame.byte5⟩)

/-! ## Time under SYNC1 -/

/-- The wake pulse lasts exactly 18000 ticks under `SYNC1`: the line is driven low from the accepting step to the release
step, which is the 18000th step after it (R83, R84). -/
def Obligations.WakePulseLasts18000Steps : Prop :=
  ∀ (s : State) (x : Sample) (es : List Event), s.state = 0 → s.inputs = .sample x :: es → x.rst = false →
    x.start = true → (∀ e ∈ es, e.isTick = true) → 18000 ≤ es.length →
    (∀ n, 1 ≤ n → n ≤ 18000 → ∃ t, run n s = .next t ∧ t.state = 1 ∧ t.oe = .output ∧ t.out = .low) ∧
    ∃ t, run 18001 s = .next t ∧ t.state = 2 ∧ t.oe = .input ∧ t.out = .high ∧ t.t0 = t.now

/-- Under `SYNC1` a wait whose awaited level does not come ends in the step after its limit, and in that step whatever the
level: `NoResponse` in the 101st step after the release, `StuckLow` in the 101st of a low phase, `StuckHigh` in the 201st
of a high phase (R108 to R110, R115). -/
def Obligations.WaitsTimeOutAtTheirLimit : Prop :=
  ∀ (s : State) (e : Event) (rest : List Event), s.t0 = s.now → e.isTick = true →
    (s.state = 2 → s.inputs = highs 100 ++ e :: rest →
      (∀ n, n ≤ 100 → ∃ t, run n s = .next t ∧ t.state = 2) ∧
      ∃ t, run 101 s = .next t ∧ t.state = 0 ∧ t.done = true ∧ t.status = .error .noResponse ∧
        t.frame = s.frame ∧ t.cnt = s.cnt) ∧
    (s.state = 3 → s.inputs = lows 100 ++ e :: rest →
      (∀ n, n ≤ 100 → ∃ t, run n s = .next t ∧ t.state = 3) ∧
      ∃ t, run 101 s = .next t ∧ t.state = 0 ∧ t.done = true ∧ t.status = .error .stuckLow ∧
        t.frame = s.frame ∧ t.cnt = s.cnt) ∧
    (s.state = 4 → s.inputs = highs 200 ++ e :: rest →
      (∀ n, n ≤ 200 → ∃ t, run n s = .next t ∧ t.state = 4) ∧
      ∃ t, run 201 s = .next t ∧ t.state = 0 ∧ t.done = true ∧ t.status = .error .stuckHigh ∧
        t.frame = s.frame ∧ t.cnt = s.cnt)

/-- Under `SYNC1` every cycle finishes, whatever the line does: not before step 18084 and not after step 30401, counted
from the accepting step, and `DONE` is 0 until then (R67, R95, R140). -/
def Obligations.EveryCycleFinishesWithin30401Steps : Prop :=
  ∀ (s : State) (x : Sample) (es : List Event), s.state = 0 → s.inputs = .sample x :: es → x.rst = false →
    x.start = true → (∀ e ∈ es, e.isTick = true) → 30401 ≤ es.length →
    ∃ n, 18084 ≤ n ∧ n ≤ 30401 ∧
      (∃ t, run (n + 1) s = .next t ∧ t.state = 0 ∧ t.done = true) ∧
      ∀ m, 1 ≤ m → m ≤ n → ∃ t, run m s = .next t ∧ t.state ≠ 0 ∧ t.done = false

/-! ## The whole machine -/

/-- The invariants of R29 hold after a step from every state in which they hold. -/
def Obligations.InvariantsHoldAfterEveryStep : Prop :=
  ∀ s t : State, s.Inv → step s = .next t → t.Inv

/-- The invariants of R29 hold at reset. -/
def Obligations.InvariantsHoldAtReset : Prop := State.reset.Inv

/-- From every state in which the invariants hold, a step answers a next state: the machine never stops (R30, R54). -/
def Obligations.StepNeverStopsUnderTheInvariants : Prop :=
  ∀ s : State, s.Inv → ∃ t, step s = .next t

/-- In no number of steps does the block drive the line high, and while it drives, the line is low (R26, R34). -/
def Obligations.BlockNeverDrivesTheLineHigh : Prop :=
  ∀ (n : Nat) (s t : State), s.Inv → run n s = .next t → t.PinSafe ∧ (t.oe = .output → lineLevel t = .low)

/-- The state graph: a step on a sample without `rst` takes one of these edges, each with its condition on the inputs and
with what it writes to `DONE` and `STATUS`; it stays in its state only where no exit condition of that state is met, and
so never in `VALIDATE` (R81). -/
def Obligations.StepsFollowTheStateGraph : Prop :=
  ∀ (s t : State) (x : Sample) (es : List Event), s.inputs = .sample x :: es → x.rst = false → step s = .next t →
    let e := (t.now.toNat + 65536 - s.t0.toNat) % 65536
    (t.state = s.state ∧ t.done = s.done ∧ t.status = s.status ∧
      ((s.state = 0 ∧ x.start = false) ∨ (s.state = 1 ∧ e < 18000) ∨ (s.state = 2 ∧ x.lvl = .high ∧ e ≤ 100) ∨
        (s.state = 3 ∧ x.lvl = .low ∧ e ≤ 100) ∨ (s.state = 4 ∧ x.lvl = .high ∧ e ≤ 200))) ∨
    (s.state = 0 ∧ t.state = 1 ∧ x.start = true ∧ t.done = false ∧ t.status = .ok) ∨
    (s.state = 1 ∧ t.state = 2 ∧ 18000 ≤ e ∧ t.done = s.done ∧ t.status = s.status) ∨
    (s.state = 2 ∧ t.state = 3 ∧ x.lvl = .low ∧ e ≤ 100 ∧ t.done = s.done ∧ t.status = s.status) ∨
    (s.state = 3 ∧ t.state = 4 ∧ x.lvl = .high ∧ e ≤ 100 ∧ t.done = s.done ∧ t.status = s.status) ∨
    (s.state = 4 ∧ t.state = 3 ∧ x.lvl = .low ∧ e ≤ 200 ∧ s.cnt.toNat + 1 ≠ 41 ∧ t.done = s.done ∧
      t.status = s.status) ∨
    (s.state = 4 ∧ t.state = 5 ∧ x.lvl = .low ∧ e ≤ 200 ∧ s.cnt.toNat + 1 = 41 ∧ t.done = s.done ∧
      t.status = s.status) ∨
    (s.state = 5 ∧ t.state = 0 ∧ t.done = true ∧
      (t.status.code = 0 ∨ t.status.code = 4 ∨ t.status.code = 5)) ∨
    (s.state = 2 ∧ t.state = 0 ∧ 100 < e ∧ t.done = true ∧ t.status.code = 1) ∨
    (s.state = 3 ∧ t.state = 0 ∧ 100 < e ∧ t.done = true ∧ t.status.code = 2) ∨
    (s.state = 4 ∧ t.state = 0 ∧ 200 < e ∧ t.done = true ∧ t.status.code = 3)

/-- Each register is written only in the states whose rules write it, `rst` apart (the table of 10_state.md section 1).
The last line is about the model's own fields, which that table does not have: that a sample comes from the queue
`inputs` (log entry 2), and that a step of the block keeps `answer` (log entries 3, 5) and `draws` (log entries 2, 5), is
the model's choice. -/
def Obligations.RegistersHaveOnlyTheirWriters : Prop :=
  ∀ (s t : State) (x : Sample) (es : List Event), s.inputs = .sample x :: es → x.rst = false → step s = .next t →
    (t.oe ≠ s.oe ∨ t.out ≠ s.out → s.state = 0 ∨ s.state = 1) ∧
    (t.frame ≠ s.frame ∨ t.cnt ≠ s.cnt → s.state = 0 ∨ s.state = 4) ∧
    (t.t0 ≠ s.t0 → s.state.toNat ≤ 4 ∧ t.t0 = t.now) ∧
    (t.status ≠ s.status ∨ t.done ≠ s.done → (s.state = 0 ∧ x.start = true) ∨ (2 ≤ s.state.toNat ∧ t.state = 0)) ∧
    t.answer = s.answer ∧ t.draws = s.draws ∧ t.inputs = es

/-- `start` while `BUSY = 1` has no effect at all: the step is the same step with the other value of `start` (R68). -/
def Obligations.StartIsIgnoredWhileBusy : Prop :=
  ∀ (s : State) (x : Sample) (es : List Event) (b : Bool), busy s = true → s.inputs = .sample x :: es →
    (∀ t, step s = .next t →
      step { s with inputs := .sample { x with start := b } :: es } = .next { t with start := b }) ∧
    (∀ r, step s = .refused r → step { s with inputs := .sample { x with start := b } :: es } = .refused r)

/-- The level of the line is not sampled in `IDLE`, `REQUEST_START` and `VALIDATE`: the step is the same step with the
other level (R34, R81). -/
def Obligations.LineIsNotSampledOutsideTheWaits : Prop :=
  ∀ (s t : State) (x : Sample) (es : List Event) (l : Level), s.state = 0 ∨ s.state = 1 ∨ s.state = 5 →
    s.inputs = .sample x :: es → step s = .next t →
    step { s with inputs := .sample { x with lvl := l } :: es } = .next { t with lvl := l }

/-- Only differences of counter values matter: adding a constant to the counter, and to `T0` in a cycle, changes no step
but by that constant, and in `IDLE` the value of `T0` is never observed (R22, R36). -/
def Obligations.AbsoluteCounterValueIsNeverObserved : Prop :=
  ∀ (d : Time) (s s' : State), s.Shifted d s' →
    (∀ t, step s = .next t → ∃ t', step s' = .next t' ∧ t.Shifted d t') ∧
    (∀ r, step s = .refused r → step s' = .refused r)

/-- A result is stable until the next `READ` is accepted: queries and `IDLE` steps with `start = 0` and `rst = 0` leave
`RESULT`, `STATUS`, `DONE` and `FRAME` alone (R28, R66, R71). -/
def Obligations.ResultIsStableUntilTheNextRead : Prop :=
  ∀ (s : State) (e : Event) (es : List Event), s.Inv → s.done = true → s.inputs = e :: es →
    (∀ x, e = .sample x → x.rst = false ∧ x.start = false) →
    ∃ t, step s = .next t ∧ result t = result s ∧ result s ≠ .none ∧ t.status = s.status ∧ t.done = true ∧
      t.frame = s.frame ∧ t.state = 0

/-- No outcome is fatal: after any finished cycle the next `READ` is accepted, clears the outcome and begins a cycle in the
same way (R70, R117). -/
def Obligations.EveryOutcomeLetsTheNextReadIn : Prop :=
  ∀ (s : State) (x : Sample) (es : List Event), s.Inv → s.done = true → s.inputs = .sample x :: es → x.rst = false →
    x.start = true →
    ∃ t, step s = .next t ∧ busy t = true ∧ t.done = false ∧ t.status = .ok ∧ result t = .none ∧
      t.frame = ⟨0, 0, 0, 0, 0, 0⟩ ∧ t.cnt = 0 ∧ t.oe = .output ∧ t.out = .low ∧ t.t0 = t.now

/-! ## Every instance -/

/-- The machine is the instance whose parameters have the defaults of R6 to R16, and those meet the constraints. That the
machine is that instance, and the constraints beyond R6, R12 and D12 in `Params.wf`, are the model's choice (log entries
15, 23). -/
def Obligations.DefaultInstanceIsTheMachine : Prop :=
  params.width = 16 ∧ params.tickMicros = 1 ∧ params.tWake = 18000 ∧ params.tResp = 100 ∧ params.tLow = 100 ∧
  params.tHigh = 200 ∧ params.tOne = 110 ∧ params.nPayload = 5 ∧ params.nDataBits = 40 ∧ params.markerBits = 1 ∧
  params.markerValue = 1 ∧ params.nPulses = 41 ∧ params.sampling = .sync1 ∧ params.wf = true ∧
  ∀ s : State, step s = stepOf params s

/-- In `IDLE` the block accepts `start = 1` and writes nothing on `start = 0`, in every instance (R82). -/
def Obligations.BlockInIdleAcceptsStart : Prop :=
  ∀ (p : Params) (s : State p.width), s.state = 0 →
    blockStep p s = .next
      (if s.start then
        { s with
          frame := ⟨0, 0, 0, 0, 0, 0⟩, cnt := 0, status := .ok, done := false, out := .low, oe := .output,
          t0 := s.now, state := 1 }
      else s)

/-- In every instance the waits, the bit decision, the place of a bit, the loop count and the marker check go by that
instance's parameters, its counter width included (R17, R52, R76, R83, R85, R90, R91, R94, R99). -/
def Obligations.RulesFollowTheParameters : Prop :=
  ∀ (p : Params) (s : State p.width), p.wf = true →
    let e := (s.now.toNat + 2 ^ p.width - s.t0.toNat) % 2 ^ p.width
    let k := s.cnt.toNat
    (s.state = 1 → blockStep p s = .next
      (if p.tWake ≤ e then { s with oe := .input, out := .high, t0 := s.now, state := 2 } else s)) ∧
    (s.state = 2 → blockStep p s = .next
      (if p.tResp < e then { s with status := .error .noResponse, done := true, state := 0 }
      else if s.lvl = .low then { s with t0 := s.now, state := 3 }
      else s)) ∧
    (s.state = 3 → blockStep p s = .next
      (if p.tLow < e then { s with status := .error .stuckLow, done := true, state := 0 }
      else if s.lvl = .high then { s with t0 := s.now, state := 4 }
      else s)) ∧
    (s.state = 4 → k < p.nPulses →
      (p.tHigh < e →
        blockStep p s = .next { s with status := .error .stuckHigh, done := true, state := 0 }) ∧
      (e ≤ p.tHigh → s.lvl = .high → blockStep p s = .next s) ∧
      (e ≤ p.tHigh → s.lvl = .low →
        ∃ f : Frame,
          blockStep p s = .next
            { s with
              frame := f, cnt := s.cnt + 1, t0 := s.now, state := if k + 1 = p.nPulses then 5 else 3 } ∧
          ∀ i q : Nat, i < 6 → q < 8 →
            (f.get i).getLsbD q =
              if i = (if k < p.markerBits then 0 else 1 + (k - p.markerBits) / 8) ∧
                  q = (if k < p.markerBits then p.markerBits - 1 - k else 7 - (k - p.markerBits) % 8)
              then decide (p.tOne < e) else (s.frame.get i).getLsbD q)) ∧
    (s.state = 5 → blockStep p s = .next
      { s with
        done := true, state := 0
        status :=
          if s.frame.marker ≠ p.markerValue then .error .missingStartMarker
          else if (s.frame.byte1.toNat + s.frame.byte2.toNat + s.frame.byte3.toNat + s.frame.byte4.toNat) % 256 ≠
              s.frame.byte5.toNat then .error .checksumMismatch
          else .ok })

/-- In every instance whose parameters meet the constraints, the invariants of R29, with that instance's marker value and
number of pulses, hold after a step from every state in which they hold (R17, R29). -/
def Obligations.InvariantsHoldInEveryInstance : Prop :=
  ∀ (p : Params) (s t : State p.width), p.wf = true → s.InvOf p → stepOf p s = .next t → t.InvOf p

/-- In every instance the invariants hold at reset (R17, R29, R126). -/
def Obligations.InvariantsHoldAtResetOfEveryInstance : Prop :=
  ∀ p : Params, (State.resetAt p.width).InvOf p

/-- In every instance a step from a state in which the invariants hold answers a next state (R17, R30). -/
def Obligations.EveryInstanceStepsUnderItsInvariants : Prop :=
  ∀ (p : Params) (s : State p.width), s.InvOf p → ∃ t, stepOf p s = .next t
end

