-- ==== Sys2Proof/Laws/Frame.lean ====
section
/-! SUPPORT. The frame buffer: writing one bit, reading another; the checksum as arithmetic on numbers. -/

namespace Sys2Proof.Machine

/-! The thresholds of the default instance as numbers (R8 to R12, R52), one lemma for each comparison. -/

@[simp] theorem tWake_le (n : Nat) : params.tWake ≤ n ↔ 18000 ≤ n := Iff.rfl
@[simp] theorem tResp_lt (n : Nat) : params.tResp < n ↔ 100 < n := Iff.rfl
@[simp] theorem tLow_lt (n : Nat) : params.tLow < n ↔ 100 < n := Iff.rfl
@[simp] theorem tHigh_lt (n : Nat) : params.tHigh < n ↔ 200 < n := Iff.rfl
@[simp] theorem tOne_lt (n : Nat) : params.tOne < n ↔ 110 < n := Iff.rfl
@[simp] theorem lt_tWake (n : Nat) : n < params.tWake ↔ n < 18000 := Iff.rfl
@[simp] theorem le_tResp (n : Nat) : n ≤ params.tResp ↔ n ≤ 100 := Iff.rfl
@[simp] theorem le_tLow (n : Nat) : n ≤ params.tLow ↔ n ≤ 100 := Iff.rfl
@[simp] theorem le_tHigh (n : Nat) : n ≤ params.tHigh ↔ n ≤ 200 := Iff.rfl
@[simp] theorem le_tOne (n : Nat) : n ≤ params.tOne ↔ n ≤ 110 := Iff.rfl

/-- `Bit(e)` (R93). -/
@[simp] theorem bitOf_eq {w : Nat} (e : BitVec w) : bitOf params e = decide (110 < e.toNat) := rfl

/-- The marker check of any instance (R101). -/
theorem markerOk_iff_marker (p : Params) (f : Frame) : markerOk p f = true ↔ f.marker = p.markerValue := by
  simp [markerOk]

/-- The marker check (R101). -/
@[simp] theorem markerOk_iff (f : Frame) : markerOk params f = true ↔ f.marker = 1 := markerOk_iff_marker params f

theorem bit_cases : ∀ p : Nat, p < 8 → p = 0 ∨ p = 1 ∨ p = 2 ∨ p = 3 ∨ p = 4 ∨ p = 5 ∨ p = 6 ∨ p = 7 := by
  intro p h; omega

/-- Reading bit `q` after writing bit `p` of a byte. -/
theorem getLsbD_setBit (b : Byte) (p q : Nat) (v : Bool) (hp : p < 8) (hq : q < 8) :
    (setBit b p v).getLsbD q = if q = p then v else b.getLsbD q := by
  rcases bit_cases p hp with rfl | rfl | rfl | rfl | rfl | rfl | rfl | rfl <;>
    rcases bit_cases q hq with rfl | rfl | rfl | rfl | rfl | rfl | rfl | rfl <;>
      cases v <;> simp [setBit]

/-- Reading a bit of the frame buffer after writing one. -/
theorem getLsbD_get_write (f : Frame) (i j p q : Nat) (v : Bool) (hi : i < 6) (hj : j < 6) (hp : p < 8) (hq : q < 8) :
    ((f.write i p v).get j).getLsbD q = if j = i ∧ q = p then v else (f.get j).getLsbD q := by
  have hi' : i = 0 ∨ i = 1 ∨ i = 2 ∨ i = 3 ∨ i = 4 ∨ i = 5 := by omega
  have hj' : j = 0 ∨ j = 1 ∨ j = 2 ∨ j = 3 ∨ j = 4 ∨ j = 5 := by omega
  rcases hi' with rfl | rfl | rfl | rfl | rfl | rfl <;>
    rcases hj' with rfl | rfl | rfl | rfl | rfl | rfl <;>
      simp [Frame.write, Frame.get, getLsbD_setBit, hp, hq, -BitVec.getLsbD_eq_getElem]

/-- R53, with `MARKER_BITS = 1`. -/
theorem bytePos_eq (k : Nat) : bytePos k = if k < 1 then 0 else 1 + (k - 1) / 8 := rfl

/-- R53, with `MARKER_BITS = 1`. -/
theorem bitPos_eq (k : Nat) : bitPos k = if k < 1 then 1 - 1 - k else 7 - (k - 1) % 8 := rfl

theorem bytePos_lt {k : Nat} (h : k < 41) : bytePos k < 6 := by
  rw [bytePos_eq]; split <;> omega

theorem bitPos_lt {k : Nat} : bitPos k < 8 := by
  rw [bitPos_eq]; split <;> omega

/-- Two pulses have one place only if they are one pulse (R94: every position is written at most once per cycle). -/
theorem place_injective {j k : Nat} (hb : bytePos j = bytePos k) (hp : bitPos j = bitPos k) : j = k := by
  rw [bytePos_eq, bytePos_eq] at hb
  rw [bitPos_eq, bitPos_eq] at hp
  by_cases hj : j < 1 <;> by_cases hk : k < 1 <;> simp only [hj, hk, ↓reduceIte] at hb hp <;> omega

/-- Reading the bit of pulse `j` after placing the bit of pulse `k`. -/
theorem pulseBit_place (f : Frame) (j k : Nat) (v : Bool) (hj : j < 41) (hk : k < 41) :
    (f.place k v).pulseBit j = if j = k then v else f.pulseBit j := by
  rw [Frame.place, Frame.pulseBit, getLsbD_get_write _ _ _ _ _ _ (bytePos_lt hk) (bytePos_lt hj) bitPos_lt bitPos_lt]
  by_cases h : j = k
  · simp [h]
  · have : ¬ (bytePos j = bytePos k ∧ bitPos j = bitPos k) := fun ⟨a, b⟩ => h (place_injective a b)
    simp [h, this, Frame.pulseBit]

/-- An index beyond the six bytes selects no bit. -/
theorem place_beyond (f : Frame) (k : Nat) (v : Bool) (hk : 41 ≤ k) : f.place k v = f := by
  have h : bytePos k = (bytePos k - 6) + 6 := by
    rw [bytePos_eq]; split <;> omega
  rw [Frame.place, h]; rfl

@[simp] theorem pulseBit_zero (k : Nat) : Frame.zero.pulseBit k = false := by
  have : ∀ i, Frame.zero.get i = 0 := by
    intro i
    match i with
    | 0 | 1 | 2 | 3 | 4 | 5 => rfl
    | n + 6 => rfl
  simp [Frame.pulseBit, this]

/-- The checksum is the sum of the four data bytes modulo 256 (R100). -/
theorem checksum_toNat (f : Frame) :
    (checksum f).toNat = (f.byte1.toNat + f.byte2.toNat + f.byte3.toNat + f.byte4.toNat) % 256 := by
  simp only [checksum, BitVec.toNat_setWidth, BitVec.toNat_add]
  omega

/-- The checksum is the byte sum (R79: truncating after each addition gives the same low 8 bits). -/
theorem checksum_eq (f : Frame) : checksum f = f.byte1 + f.byte2 + f.byte3 + f.byte4 := by
  apply BitVec.eq_of_toNat_eq
  rw [checksum_toNat]
  simp only [BitVec.toNat_add]
  omega

/-- The sampled inputs of `sampleAt` show the elapsed time it is given (R46). -/
@[simp] theorem elapsed_of_now {w : Nat} (s : State w) (e : BitVec w) (h : s.now = s.t0 + e) : elapsed s = e := by
  rw [elapsed, h, BitVec.add_comm, BitVec.add_sub_cancel]

/-- An elapsed time as a number (R76, R79). -/
theorem elapsed_toNat (s : State) : (elapsed s).toNat = (s.now.toNat + 65536 - s.t0.toNat) % 65536 := by
  simp only [elapsed, counterWidth, BitVec.toNat_sub]; omega

end Sys2Proof.Machine
end

