-- ==== Sys2Proof/Laws/State.lean ====
section
/-! SUPPORT. One lemma per field of the state and per update of it: what the update leaves in that field. -/

namespace Sys2Proof.Machine

variable {w : Nat} (s : State w)

@[simp] theorem driveLow_eq : driveLow s = setDirection .output (setLevel .low s) := rfl
@[simp] theorem release_eq : release s = setLevel .high (setDirection .input s) := rfl
@[simp] theorem raise_eq (k : ErrorKind) : raise k s = finish (.error k) s := rfl
@[simp] theorem sampleLevel_eq : sampleLevel s = s.lvl := rfl
@[simp] theorem askOutput_eq (q : Query) : askOutput q s = answerWith (output q s) s := rfl
@[simp] theorem askFrame_eq : askFrame s = answerWith (.frame s.frame) s := rfl

@[simp] theorem goto_state (c : BitVec 3) : (goto c s).state = c := rfl
@[simp] theorem goto_cnt (c : BitVec 3) : (goto c s).cnt = s.cnt := rfl
@[simp] theorem goto_t0 (c : BitVec 3) : (goto c s).t0 = s.t0 := rfl
@[simp] theorem goto_frame (c : BitVec 3) : (goto c s).frame = s.frame := rfl
@[simp] theorem goto_status (c : BitVec 3) : (goto c s).status = s.status := rfl
@[simp] theorem goto_done (c : BitVec 3) : (goto c s).done = s.done := rfl
@[simp] theorem goto_oe (c : BitVec 3) : (goto c s).oe = s.oe := rfl
@[simp] theorem goto_out (c : BitVec 3) : (goto c s).out = s.out := rfl
@[simp] theorem goto_rst (c : BitVec 3) : (goto c s).rst = s.rst := rfl
@[simp] theorem goto_start (c : BitVec 3) : (goto c s).start = s.start := rfl
@[simp] theorem goto_now (c : BitVec 3) : (goto c s).now = s.now := rfl
@[simp] theorem goto_lvl (c : BitVec 3) : (goto c s).lvl = s.lvl := rfl
@[simp] theorem goto_inputs (c : BitVec 3) : (goto c s).inputs = s.inputs := rfl
@[simp] theorem goto_answer (c : BitVec 3) : (goto c s).answer = s.answer := rfl
@[simp] theorem goto_draws (c : BitVec 3) : (goto c s).draws = s.draws := rfl

@[simp] theorem stamp_state : (stamp s).state = s.state := rfl
@[simp] theorem stamp_cnt : (stamp s).cnt = s.cnt := rfl
@[simp] theorem stamp_t0 : (stamp s).t0 = s.now := rfl
@[simp] theorem stamp_frame : (stamp s).frame = s.frame := rfl
@[simp] theorem stamp_status : (stamp s).status = s.status := rfl
@[simp] theorem stamp_done : (stamp s).done = s.done := rfl
@[simp] theorem stamp_oe : (stamp s).oe = s.oe := rfl
@[simp] theorem stamp_out : (stamp s).out = s.out := rfl
@[simp] theorem stamp_rst : (stamp s).rst = s.rst := rfl
@[simp] theorem stamp_start : (stamp s).start = s.start := rfl
@[simp] theorem stamp_now : (stamp s).now = s.now := rfl
@[simp] theorem stamp_lvl : (stamp s).lvl = s.lvl := rfl
@[simp] theorem stamp_inputs : (stamp s).inputs = s.inputs := rfl
@[simp] theorem stamp_answer : (stamp s).answer = s.answer := rfl
@[simp] theorem stamp_draws : (stamp s).draws = s.draws := rfl

@[simp] theorem setDirection_state (d : Direction) : (setDirection d s).state = s.state := rfl
@[simp] theorem setDirection_cnt (d : Direction) : (setDirection d s).cnt = s.cnt := rfl
@[simp] theorem setDirection_t0 (d : Direction) : (setDirection d s).t0 = s.t0 := rfl
@[simp] theorem setDirection_frame (d : Direction) : (setDirection d s).frame = s.frame := rfl
@[simp] theorem setDirection_status (d : Direction) : (setDirection d s).status = s.status := rfl
@[simp] theorem setDirection_done (d : Direction) : (setDirection d s).done = s.done := rfl
@[simp] theorem setDirection_oe (d : Direction) : (setDirection d s).oe = d := rfl
@[simp] theorem setDirection_out (d : Direction) : (setDirection d s).out = s.out := rfl
@[simp] theorem setDirection_rst (d : Direction) : (setDirection d s).rst = s.rst := rfl
@[simp] theorem setDirection_start (d : Direction) : (setDirection d s).start = s.start := rfl
@[simp] theorem setDirection_now (d : Direction) : (setDirection d s).now = s.now := rfl
@[simp] theorem setDirection_lvl (d : Direction) : (setDirection d s).lvl = s.lvl := rfl
@[simp] theorem setDirection_inputs (d : Direction) : (setDirection d s).inputs = s.inputs := rfl
@[simp] theorem setDirection_answer (d : Direction) : (setDirection d s).answer = s.answer := rfl
@[simp] theorem setDirection_draws (d : Direction) : (setDirection d s).draws = s.draws := rfl

@[simp] theorem setLevel_state (v : Level) : (setLevel v s).state = s.state := rfl
@[simp] theorem setLevel_cnt (v : Level) : (setLevel v s).cnt = s.cnt := rfl
@[simp] theorem setLevel_t0 (v : Level) : (setLevel v s).t0 = s.t0 := rfl
@[simp] theorem setLevel_frame (v : Level) : (setLevel v s).frame = s.frame := rfl
@[simp] theorem setLevel_status (v : Level) : (setLevel v s).status = s.status := rfl
@[simp] theorem setLevel_done (v : Level) : (setLevel v s).done = s.done := rfl
@[simp] theorem setLevel_oe (v : Level) : (setLevel v s).oe = s.oe := rfl
@[simp] theorem setLevel_out (v : Level) : (setLevel v s).out = v := rfl
@[simp] theorem setLevel_rst (v : Level) : (setLevel v s).rst = s.rst := rfl
@[simp] theorem setLevel_start (v : Level) : (setLevel v s).start = s.start := rfl
@[simp] theorem setLevel_now (v : Level) : (setLevel v s).now = s.now := rfl
@[simp] theorem setLevel_lvl (v : Level) : (setLevel v s).lvl = s.lvl := rfl
@[simp] theorem setLevel_inputs (v : Level) : (setLevel v s).inputs = s.inputs := rfl
@[simp] theorem setLevel_answer (v : Level) : (setLevel v s).answer = s.answer := rfl
@[simp] theorem setLevel_draws (v : Level) : (setLevel v s).draws = s.draws := rfl

@[simp] theorem answerWith_state (a : Answer w) : (answerWith a s).state = s.state := rfl
@[simp] theorem answerWith_cnt (a : Answer w) : (answerWith a s).cnt = s.cnt := rfl
@[simp] theorem answerWith_t0 (a : Answer w) : (answerWith a s).t0 = s.t0 := rfl
@[simp] theorem answerWith_frame (a : Answer w) : (answerWith a s).frame = s.frame := rfl
@[simp] theorem answerWith_status (a : Answer w) : (answerWith a s).status = s.status := rfl
@[simp] theorem answerWith_done (a : Answer w) : (answerWith a s).done = s.done := rfl
@[simp] theorem answerWith_oe (a : Answer w) : (answerWith a s).oe = s.oe := rfl
@[simp] theorem answerWith_out (a : Answer w) : (answerWith a s).out = s.out := rfl
@[simp] theorem answerWith_rst (a : Answer w) : (answerWith a s).rst = s.rst := rfl
@[simp] theorem answerWith_start (a : Answer w) : (answerWith a s).start = s.start := rfl
@[simp] theorem answerWith_now (a : Answer w) : (answerWith a s).now = s.now := rfl
@[simp] theorem answerWith_lvl (a : Answer w) : (answerWith a s).lvl = s.lvl := rfl
@[simp] theorem answerWith_inputs (a : Answer w) : (answerWith a s).inputs = s.inputs := rfl
@[simp] theorem answerWith_answer (a : Answer w) : (answerWith a s).answer = a := rfl
@[simp] theorem answerWith_draws (a : Answer w) : (answerWith a s).draws = s.draws := rfl

@[simp] theorem finish_state (st : Status) : (finish st s).state = stIdle := rfl
@[simp] theorem finish_cnt (st : Status) : (finish st s).cnt = s.cnt := rfl
@[simp] theorem finish_t0 (st : Status) : (finish st s).t0 = s.t0 := rfl
@[simp] theorem finish_frame (st : Status) : (finish st s).frame = s.frame := rfl
@[simp] theorem finish_status (st : Status) : (finish st s).status = st := rfl
@[simp] theorem finish_done (st : Status) : (finish st s).done = true := rfl
@[simp] theorem finish_oe (st : Status) : (finish st s).oe = s.oe := rfl
@[simp] theorem finish_out (st : Status) : (finish st s).out = s.out := rfl
@[simp] theorem finish_rst (st : Status) : (finish st s).rst = s.rst := rfl
@[simp] theorem finish_start (st : Status) : (finish st s).start = s.start := rfl
@[simp] theorem finish_now (st : Status) : (finish st s).now = s.now := rfl
@[simp] theorem finish_lvl (st : Status) : (finish st s).lvl = s.lvl := rfl
@[simp] theorem finish_inputs (st : Status) : (finish st s).inputs = s.inputs := rfl
@[simp] theorem finish_answer (st : Status) : (finish st s).answer = s.answer := rfl
@[simp] theorem finish_draws (st : Status) : (finish st s).draws = s.draws := rfl

@[simp] theorem acceptRead_state : (acceptRead s).state = stRequestStart := rfl
@[simp] theorem acceptRead_cnt : (acceptRead s).cnt = 0 := rfl
@[simp] theorem acceptRead_t0 : (acceptRead s).t0 = s.now := rfl
@[simp] theorem acceptRead_frame : (acceptRead s).frame = Frame.zero := rfl
@[simp] theorem acceptRead_status : (acceptRead s).status = .ok := rfl
@[simp] theorem acceptRead_done : (acceptRead s).done = false := rfl
@[simp] theorem acceptRead_oe : (acceptRead s).oe = .output := rfl
@[simp] theorem acceptRead_out : (acceptRead s).out = .low := rfl
@[simp] theorem acceptRead_rst : (acceptRead s).rst = s.rst := rfl
@[simp] theorem acceptRead_start : (acceptRead s).start = s.start := rfl
@[simp] theorem acceptRead_now : (acceptRead s).now = s.now := rfl
@[simp] theorem acceptRead_lvl : (acceptRead s).lvl = s.lvl := rfl
@[simp] theorem acceptRead_inputs : (acceptRead s).inputs = s.inputs := rfl
@[simp] theorem acceptRead_answer : (acceptRead s).answer = s.answer := rfl
@[simp] theorem acceptRead_draws : (acceptRead s).draws = s.draws := rfl

@[simp] theorem resetBlock_state : (resetBlock s).state = stIdle := rfl
@[simp] theorem resetBlock_cnt : (resetBlock s).cnt = 0 := rfl
@[simp] theorem resetBlock_t0 : (resetBlock s).t0 = BitVec.ofNat w (Config.freeT0 s.draws) := rfl
@[simp] theorem resetBlock_frame : (resetBlock s).frame = Frame.zero := rfl
@[simp] theorem resetBlock_status : (resetBlock s).status = .ok := rfl
@[simp] theorem resetBlock_done : (resetBlock s).done = false := rfl
@[simp] theorem resetBlock_oe : (resetBlock s).oe = .input := rfl
@[simp] theorem resetBlock_out : (resetBlock s).out = .high := rfl
@[simp] theorem resetBlock_rst : (resetBlock s).rst = s.rst := rfl
@[simp] theorem resetBlock_start : (resetBlock s).start = s.start := rfl
@[simp] theorem resetBlock_now : (resetBlock s).now = s.now := rfl
@[simp] theorem resetBlock_lvl : (resetBlock s).lvl = s.lvl := rfl
@[simp] theorem resetBlock_inputs : (resetBlock s).inputs = s.inputs := rfl
@[simp] theorem resetBlock_answer : (resetBlock s).answer = s.answer := rfl
@[simp] theorem resetBlock_draws : (resetBlock s).draws = s.draws + 1 := rfl

@[simp] theorem latch_state (x : Sample) : (latch x s).state = s.state := rfl
@[simp] theorem latch_cnt (x : Sample) : (latch x s).cnt = s.cnt := rfl
@[simp] theorem latch_t0 (x : Sample) : (latch x s).t0 = s.t0 := rfl
@[simp] theorem latch_frame (x : Sample) : (latch x s).frame = s.frame := rfl
@[simp] theorem latch_status (x : Sample) : (latch x s).status = s.status := rfl
@[simp] theorem latch_done (x : Sample) : (latch x s).done = s.done := rfl
@[simp] theorem latch_oe (x : Sample) : (latch x s).oe = s.oe := rfl
@[simp] theorem latch_out (x : Sample) : (latch x s).out = s.out := rfl
@[simp] theorem latch_rst (x : Sample) : (latch x s).rst = x.rst := rfl
@[simp] theorem latch_start (x : Sample) : (latch x s).start = x.start := rfl
@[simp] theorem latch_now (x : Sample) : (latch x s).now = advance s.now x.ticks := rfl
@[simp] theorem latch_lvl (x : Sample) : (latch x s).lvl = x.lvl := rfl
@[simp] theorem latch_inputs (x : Sample) : (latch x s).inputs = s.inputs := rfl
@[simp] theorem latch_answer (x : Sample) : (latch x s).answer = s.answer := rfl
@[simp] theorem latch_draws (x : Sample) : (latch x s).draws = s.draws := rfl

@[simp] theorem sampleAt_state (e : BitVec w) (l : Level) : (sampleAt e l s).state = s.state := rfl
@[simp] theorem sampleAt_cnt (e : BitVec w) (l : Level) : (sampleAt e l s).cnt = s.cnt := rfl
@[simp] theorem sampleAt_t0 (e : BitVec w) (l : Level) : (sampleAt e l s).t0 = s.t0 := rfl
@[simp] theorem sampleAt_frame (e : BitVec w) (l : Level) : (sampleAt e l s).frame = s.frame := rfl
@[simp] theorem sampleAt_status (e : BitVec w) (l : Level) : (sampleAt e l s).status = s.status := rfl
@[simp] theorem sampleAt_done (e : BitVec w) (l : Level) : (sampleAt e l s).done = s.done := rfl
@[simp] theorem sampleAt_oe (e : BitVec w) (l : Level) : (sampleAt e l s).oe = s.oe := rfl
@[simp] theorem sampleAt_out (e : BitVec w) (l : Level) : (sampleAt e l s).out = s.out := rfl
@[simp] theorem sampleAt_rst (e : BitVec w) (l : Level) : (sampleAt e l s).rst = s.rst := rfl
@[simp] theorem sampleAt_start (e : BitVec w) (l : Level) : (sampleAt e l s).start = s.start := rfl
@[simp] theorem sampleAt_now (e : BitVec w) (l : Level) : (sampleAt e l s).now = s.t0 + e := rfl
@[simp] theorem sampleAt_lvl (e : BitVec w) (l : Level) : (sampleAt e l s).lvl = l := rfl
@[simp] theorem sampleAt_inputs (e : BitVec w) (l : Level) : (sampleAt e l s).inputs = s.inputs := rfl
@[simp] theorem sampleAt_answer (e : BitVec w) (l : Level) : (sampleAt e l s).answer = s.answer := rfl
@[simp] theorem sampleAt_draws (e : BitVec w) (l : Level) : (sampleAt e l s).draws = s.draws := rfl

@[simp] theorem endPulse_state (p : Params) : (endPulse p s).state = afterPulse p s.cnt := rfl
@[simp] theorem endPulse_cnt (p : Params) : (endPulse p s).cnt = s.cnt + 1 := rfl
@[simp] theorem endPulse_t0 (p : Params) : (endPulse p s).t0 = s.now := rfl
@[simp] theorem endPulse_frame (p : Params) : (endPulse p s).frame =
    s.frame.place s.cnt.toNat (bitOf p (elapsed s)) p := rfl
@[simp] theorem endPulse_status (p : Params) : (endPulse p s).status = s.status := rfl
@[simp] theorem endPulse_done (p : Params) : (endPulse p s).done = s.done := rfl
@[simp] theorem endPulse_oe (p : Params) : (endPulse p s).oe = s.oe := rfl
@[simp] theorem endPulse_out (p : Params) : (endPulse p s).out = s.out := rfl
@[simp] theorem endPulse_rst (p : Params) : (endPulse p s).rst = s.rst := rfl
@[simp] theorem endPulse_start (p : Params) : (endPulse p s).start = s.start := rfl
@[simp] theorem endPulse_now (p : Params) : (endPulse p s).now = s.now := rfl
@[simp] theorem endPulse_lvl (p : Params) : (endPulse p s).lvl = s.lvl := rfl
@[simp] theorem endPulse_inputs (p : Params) : (endPulse p s).inputs = s.inputs := rfl
@[simp] theorem endPulse_answer (p : Params) : (endPulse p s).answer = s.answer := rfl
@[simp] theorem endPulse_draws (p : Params) : (endPulse p s).draws = s.draws := rfl

end Sys2Proof.Machine
end

