-- ==== Sys2Proof/Laws/Ops.lean ====
section
/-! SUPPORT. What the shared operations, a step of the block and a step of the machine can do, each said once. -/

namespace Sys2Proof.Machine

variable {w : Nat} {p : Params} {s t : State w}

/-- Two effects in a row answer a next state exactly where both do. -/
theorem andThen_next {o : Outcome w} {f : State w → Outcome w} :
    andThen o f = .next t ↔ ∃ u, o = .next u ∧ f u = .next t := by
  cases o <;> simp [andThen]

/-- Not proved by rfl on purpose: simp would then leave it to the kernel to compare `andThen (.next s) f` with `f s`, and
the kernel would unfold `f`. -/
@[simp] theorem andThen_of_next {f : State w → Outcome w} : andThen (.next s) f = f s := by simp only [andThen]

@[simp] theorem andThen_of_refused {r : Refusal} {f : State w → Outcome w} : andThen (.refused r) f = .refused r := by
  simp only [andThen]

/-- Everything one step of the block can do, in any instance: one constructor per edge of the state graph (R81), the
busy-waits included. -/
inductive Move (p : Params) (s : State w) : State w → Prop where
  | noCommand (hs : s.state = stIdle) (h : s.start = false) : Move p s s
  | accept (hs : s.state = stIdle) (h : s.start = true) : Move p s (acceptRead s)
  | hold (hs : s.state = stRequestStart) (h : (elapsed s).toNat < p.tWake) : Move p s s
  | release (hs : s.state = stRequestStart) (h : p.tWake ≤ (elapsed s).toNat) :
      Move p s (goto stAwaitResponse (stamp (release s)))
  | noResponse (hs : s.state = stAwaitResponse) (h : p.tResp < (elapsed s).toNat) : Move p s (raise .noResponse s)
  | acknowledge (hs : s.state = stAwaitResponse) (h : (elapsed s).toNat ≤ p.tResp) (hl : s.lvl = .low) :
      Move p s (goto stBitLow (stamp s))
  | awaiting (hs : s.state = stAwaitResponse) (h : (elapsed s).toNat ≤ p.tResp) (hl : s.lvl = .high) : Move p s s
  | stuckLow (hs : s.state = stBitLow) (h : p.tLow < (elapsed s).toNat) : Move p s (raise .stuckLow s)
  | rise (hs : s.state = stBitLow) (h : (elapsed s).toNat ≤ p.tLow) (hl : s.lvl = .high) :
      Move p s (goto stBitHigh (stamp s))
  | stillLow (hs : s.state = stBitLow) (h : (elapsed s).toNat ≤ p.tLow) (hl : s.lvl = .low) : Move p s s
  | stuckHigh (hs : s.state = stBitHigh) (h : p.tHigh < (elapsed s).toNat) : Move p s (raise .stuckHigh s)
  | fall (hs : s.state = stBitHigh) (h : (elapsed s).toNat ≤ p.tHigh) (hl : s.lvl = .low) : Move p s (endPulse p s)
  | stillHigh (hs : s.state = stBitHigh) (h : (elapsed s).toNat ≤ p.tHigh) (hl : s.lvl = .high) : Move p s s
  | badMarker (hs : s.state = stValidate) (h : markerOk p s.frame = false) : Move p s (raise .missingStartMarker s)
  | badChecksum (hs : s.state = stValidate) (h : markerOk p s.frame = true) (hc : checksum s.frame ≠ s.frame.byte5) :
      Move p s (raise .checksumMismatch s)
  | success (hs : s.state = stValidate) (h : markerOk p s.frame = true) (hc : checksum s.frame = s.frame.byte5) :
      Move p s (finish .ok s)

theorem state_cases (c : BitVec 3) : c = 0 ∨ c = 1 ∨ c = 2 ∨ c = 3 ∨ c = 4 ∨ c = 5 ∨ c = 6 ∨ c = 7 := by
  revert c; decide

/-- In the default instance the rule that `STATE` selects is the instruction a step fetches (R81). -/
theorem blockStep_eq_exec_fetch (s : State) : blockStep params s = exec (fetch s) s := by
  rcases state_cases s.state with h | h | h | h | h | h | h | h <;> simp only [blockStep, fetch, decodeState, h] <;> rfl

theorem blockStep_move (h : blockStep p s = .next t) : Move p s t := by
  rcases state_cases s.state with hs | hs | hs | hs | hs | hs | hs | hs <;> simp [blockStep, hs] at h
  · simp only [idleRule] at h
    split at h <;> subst h
    · exact .accept hs ‹_›
    · exact .noCommand hs (by simp_all)
  · simp only [requestStartRule] at h
    split at h <;> subst h
    · exact .release hs ‹_›
    · exact .hold hs (Nat.not_le.mp ‹_›)
  · simp only [awaitResponseRule] at h
    split at h
    · subst h; exact .noResponse hs ‹_›
    · have he := Nat.not_lt.mp ‹_›
      split at h <;> subst h
      · exact .acknowledge hs he ‹_›
      · exact .awaiting hs he (by cases hl : s.lvl <;> simp_all)
  · simp only [bitLowRule] at h
    split at h
    · subst h; exact .stuckLow hs ‹_›
    · have he := Nat.not_lt.mp ‹_›
      split at h <;> subst h
      · exact .rise hs he ‹_›
      · exact .stillLow hs he (by cases hl : s.lvl <;> simp_all)
  · simp only [bitHighRule] at h
    split at h
    · subst h; exact .stuckHigh hs ‹_›
    · have he := Nat.not_lt.mp ‹_›
      split at h <;> subst h
      · exact .fall hs he ‹_›
      · exact .stillHigh hs he (by cases hl : s.lvl <;> simp_all)
  · simp only [validateRule] at h
    split at h
    · subst h; exact .badMarker hs (by simp_all)
    · have hm : markerOk p s.frame = true := by simp_all
      split at h <;> subst h
      · exact .badChecksum hs hm ‹_›
      · exact .success hs hm (not_not.mp ‹_›)

/-- The moves are exactly the steps of the block. -/
theorem blockStep_of_move (m : Move p s t) : blockStep p s = .next t := by
  cases m <;> simp_all [blockStep, idleRule, requestStartRule, awaitResponseRule, bitLowRule, bitHighRule, validateRule,
    Nat.not_lt.mpr, Nat.not_le.mpr]

/-- A block that holds a reserved code in `STATE` has no step (R81). -/
theorem blockStep_reserved (h : 6 ≤ s.state.toNat) : blockStep p s = .refused (.reservedState s.state) := by
  rcases state_cases s.state with hs | hs | hs | hs | hs | hs | hs | hs <;> simp [hs] at h <;> simp [blockStep, hs]

/-- A step of the block stops only on a reserved code. -/
theorem blockStep_refused {r : Refusal} (h : blockStep p s = .refused r) :
    6 ≤ s.state.toNat ∧ r = .reservedState s.state := by
  rcases state_cases s.state with hs | hs | hs | hs | hs | hs | hs | hs <;> simp_all [blockStep]

/-- Every legal state has a move (R30: "The function is total"). -/
theorem blockStep_total (p : Params) (h : s.state.toNat ≤ 5) : ∃ t, blockStep p s = .next t := by
  rcases state_cases s.state with hs | hs | hs | hs | hs | hs | hs | hs <;>
    first
      | exact ⟨_, by simp [blockStep, hs]; rfl⟩
      | simp [hs] at h

/-- Everything one step of the machine can do to a state `u` from which the event has been taken, in any instance. -/
inductive EventMove (p : Params) (u : State w) : Event → State w → Prop where
  | asked (q : Query) : EventMove p u (.ask q) (answerWith (output q u) u)
  | askedFrame : EventMove p u .askFrame (answerWith (.frame u.frame) u)
  | reset (x : Sample) (h : x.rst = true) : EventMove p u (.sample x) (resetBlock (latch x u))
  | moved (x : Sample) (h : x.rst = false) {t : State w} (m : Move p (latch x u) t) : EventMove p u (.sample x) t

theorem stepEvent_move {e : Event} (h : stepEvent p e s = .next t) : EventMove p s e t := by
  cases e with
  | ask q => cases h; exact .asked q
  | askFrame => cases h; exact .askedFrame
  | sample x =>
    simp only [stepEvent] at h
    split at h
    · cases h; exact .reset x ‹_›
    · exact .moved x (by simp_all) (blockStep_move h)

/-- Everything one step of the machine can do, in any instance. -/
theorem stepOf_move (h : stepOf p s = .next t) : EventMove p (nextEvent p s).2 (nextEvent p s).1 t := stepEvent_move h

/-- A step of the machine stops only on a sample, and only on a reserved code. -/
theorem stepOf_refused {r : Refusal} (h : stepOf p s = .refused r) :
    6 ≤ s.state.toNat ∧ r = .reservedState s.state := by
  have hs : (nextEvent p s).2.state = s.state := by unfold nextEvent; split <;> rfl
  simp only [stepOf] at h
  cases he : (nextEvent p s).1 with
  | ask q => rw [he] at h; cases h
  | askFrame => rw [he] at h; cases h
  | sample x =>
    rw [he] at h
    simp only [stepEvent] at h
    split at h
    · cases h
    · rw [← hs]
      exact blockStep_refused (s := latch x (nextEvent p s).2) h

theorem nextEvent_cons {e : Event} {es : List Event} (h : s.inputs = e :: es) :
    nextEvent p s = (e, { s with inputs := es }) := by
  simp [nextEvent, h]

theorem nextEvent_nil (h : s.inputs = []) :
    nextEvent p s = (.sample (freeSample p s.draws), { s with draws := s.draws + 1 }) := by
  simp [nextEvent, h]

/-- A step on a queued sample without `rst` is one step of the block on that sample. -/
theorem stepOf_sample {x : Sample} {es : List Event} (h : s.inputs = .sample x :: es) (hr : x.rst = false) :
    stepOf p s = blockStep p (latch x { s with inputs := es }) := by
  simp [stepOf, nextEvent_cons h, stepEvent, hr]

/-- A step on a queued sample with `rst` is a reset of the block. -/
theorem stepOf_rst {x : Sample} {es : List Event} (h : s.inputs = .sample x :: es) (hr : x.rst = true) :
    stepOf p s = .next (resetBlock (latch x { s with inputs := es })) := by
  simp [stepOf, nextEvent_cons h, stepEvent, hr]

/-! The default instance. -/

variable {s t : State}

theorem step_move (h : step s = .next t) : EventMove params (nextEvent params s).2 (nextEvent params s).1 t :=
  stepOf_move h

theorem step_sample {x : Sample} {es : List Event} (h : s.inputs = .sample x :: es) (hr : x.rst = false) :
    step s = blockStep params (latch x { s with inputs := es }) := stepOf_sample h hr

theorem step_rst {x : Sample} {es : List Event} (h : s.inputs = .sample x :: es) (hr : x.rst = true) :
    step s = .next (resetBlock (latch x { s with inputs := es })) := stepOf_rst h hr

/-- On a sample without `rst` a step runs the instruction that `STATE` selects (R81). -/
theorem step_sample_exec {x : Sample} {es : List Event} (h : s.inputs = .sample x :: es) (hr : x.rst = false) :
    step s = exec (decodeState s.state) (latch x { s with inputs := es }) := by
  rw [step_sample h hr, blockStep_eq_exec_fetch]; rfl

/-- A step answers a query of the host by executing it (R66). -/
theorem step_ask_exec {q : Query} {es : List Event} (h : s.inputs = .ask q :: es) :
    step s = exec q.instr { s with inputs := es } := by
  simp only [step, stepOf, nextEvent_cons h, stepEvent]
  cases q <;> rfl

end Sys2Proof.Machine
end

