-- ==== Sys2Proof/Laws/PerInstr.lean ====
section
/-! SUPPORT. Statements about every instruction as syntax, one lemma per constructor. -/

namespace Sys2Proof.Laws

theorem ofBit_toBit_level (v : Level) : Level.ofBit v.toBit = v := by cases v <;> rfl

theorem ofBit_toBit_direction (d : Direction) : Direction.ofBit d.toBit = d := by cases d <;> rfl

/-- The marker bit of an encoded frame is 1 (R48). -/
theorem encodeFrame_marker (h f t g c : Byte) : (encodeFrame h f t g c).getLsbD 40 = true := by
  simp only [encodeFrame, BitVec.getLsbD_cast, BitVec.getLsbD_append]
  rfl

/-- The payload bytes of an encoded frame stand where R48 puts them. -/
theorem encodeFrame_bytes (h f t g c : Byte) :
    (encodeFrame h f t g c).extractLsb' 32 8 = h ∧ (encodeFrame h f t g c).extractLsb' 24 8 = f ∧
      (encodeFrame h f t g c).extractLsb' 16 8 = t ∧ (encodeFrame h f t g c).extractLsb' 8 8 = g ∧
      (encodeFrame h f t g c).extractLsb' 0 8 = c := by
  refine ⟨?_, ?_, ?_, ?_, ?_⟩ <;>
    · apply BitVec.eq_of_getLsbD_eq
      intro i hi
      rcases Sys2Proof.Machine.bit_cases i hi with rfl | rfl | rfl | rfl | rfl | rfl | rfl | rfl <;>
        · simp only [encodeFrame, BitVec.getLsbD_extractLsb', BitVec.getLsbD_cast, BitVec.getLsbD_append]
          simp

namespace RoundTrip

/-- Decoding the code of a well-formed instruction gives it back. -/
def Statement (i : Instr) : Prop := i.wf = true → decode (encode i) = .ok i

theorem read : Statement .read := fun _ => rfl
theorem nocmd : Statement .nocmd := fun _ => rfl
theorem busyQ : Statement .busyQ := fun _ => rfl
theorem doneQ : Statement .doneQ := fun _ => rfl
theorem validQ : Statement .validQ := fun _ => rfl
theorem statusQ : Statement .statusQ := fun _ => rfl
theorem resultQ : Statement .resultQ := fun _ => rfl
theorem stepIdle : Statement .stepIdle := fun _ => rfl
theorem stepRequestStart : Statement .stepRequestStart := fun _ => rfl
theorem stepAwaitResponse : Statement .stepAwaitResponse := fun _ => rfl
theorem stepBitLow : Statement .stepBitLow := fun _ => rfl
theorem stepBitHigh : Statement .stepBitHigh := fun _ => rfl
theorem stepValidate : Statement .stepValidate := fun _ => rfl
theorem reservedState110 : Statement .reservedState110 := fun _ => rfl
theorem reservedState111 : Statement .reservedState111 := fun _ => rfl
theorem setDirection (d : Direction) : Statement (.setDirection d) := fun _ => by
  simp [encode, decode, decodePort, ofBit_toBit_direction]
theorem setLevel (v : Level) : Statement (.setLevel v) := fun _ => by
  simp [encode, decode, decodePort, ofBit_toBit_level]
theorem readLevel : Statement .readLevel := fun _ => rfl
theorem now : Statement .now := fun _ => rfl
theorem bit0 (lm hm : Time) : Statement (.bit0 lm hm) := fun w => by
  simp [Instr.wf] at w
  have h200 : ¬ 200 < hm.toNat := by omega
  simp [encode, decode, decodePulse, Nat.not_lt.mpr w.1, Nat.not_lt.mpr w.2, h200]
theorem bit1 (lm hm : Time) : Statement (.bit1 lm hm) := fun w => by
  simp [Instr.wf] at w
  simp [encode, decode, decodePulse, Nat.not_lt.mpr w.1.1, w.1.2, Nat.not_lt.mpr w.2]
theorem lowTooLong (e : Time) (l : Level) : Statement (.lowTooLong e l) := fun w => by
  simp [Instr.wf] at w
  simp [encode, decode, decodePulse, w]
theorem highTooLong (e : Time) (l : Level) : Statement (.highTooLong e l) := fun w => by
  simp [Instr.wf] at w
  simp [encode, decode, decodePulse, w]
theorem frame (h f t g c : Byte) : Statement (.frame h f t g c) := fun w => by
  simp only [Instr.wf, beq_iff_eq] at w
  obtain ⟨e1, e2, e3, e4, e5⟩ := encodeFrame_bytes h f t g c
  simp only [encode, decode, decodeFrame, encodeFrame_marker, e1, e2, e3, e4, e5]
  simp [w]
theorem ok : Statement .ok := fun _ => rfl
theorem noResponse : Statement .noResponse := fun _ => rfl
theorem stuckLow : Statement .stuckLow := fun _ => rfl
theorem stuckHigh : Statement .stuckHigh := fun _ => rfl
theorem missingStartMarker : Statement .missingStartMarker := fun _ => rfl
theorem checksumMismatch : Statement .checksumMismatch := fun _ => rfl
theorem reservedStatus110 : Statement .reservedStatus110 := fun _ => rfl
theorem reservedStatus111 : Statement .reservedStatus111 := fun _ => rfl

end RoundTrip

end Sys2Proof.Laws
end

