-- ==== Sys2Proof/Laws/Run.lean ====
section
/-! SUPPORT. Runs of several steps: how they compose, and the runs in which the block only waits. -/

namespace Sys2Proof.Machine

variable {s t : State}

@[simp] theorem run_zero (s : State) : run 0 s = .next s := rfl

/-- A run begins with one step. -/
theorem run_succ (n : Nat) (s : State) : run (n + 1) s = andThen (step s) (run n) := by
  have h : ∀ o : Outcome, Sys2Proof.core.step s = o → run (n + 1) s = andThen o (run n) := by
    intro o ho
    simp only [run, Host.Core.run, ho, andThen]
    cases o <;> rfl
  exact h _ rfl

/-- A run in two parts. -/
theorem run_add {m n : Nat} (h : run m s = .next t) : run (m + n) s = run n t := by
  induction m generalizing s with
  | zero => cases h; rw [Nat.zero_add]
  | succ m ih =>
    rw [run_succ, andThen_next] at h
    obtain ⟨u, hu, h⟩ := h
    rw [Nat.succ_add, run_succ, hu, andThen_of_next, ih h]

/-- A run with its last step. -/
theorem run_step {n : Nat} (h : run n s = .next t) : run (n + 1) s = step t := by
  rw [run_add h, run_succ]
  cases step t <;> simp [andThen]

/-- A one-step run is a step. -/
theorem run_one (s : State) : run 1 s = step s := run_step (run_zero s)

/-- The counter after `d` ticks from `T0`, read as an elapsed time (R76). -/
theorem elapsed_ticks {d : Nat} (h : s.now = s.t0 + BitVec.ofNat 16 d) (hd : d < 65536) : (elapsed s).toNat = d := by
  rw [elapsed_of_now s _ h, BitVec.toNat_ofNat]
  exact Nat.mod_eq_of_lt hd

/-- One tick more. -/
theorem ticks_succ (x : Time) (d : Nat) : x + BitVec.ofNat 16 d + BitVec.ofNat 16 1 = x + BitVec.ofNat 16 (d + 1) := by
  rw [BitVec.add_assoc, ← BitVec.ofNat_add]

/-- What a wait of `n` samples at level `l` leaves: the queue shorter, the inputs latched, the counter advanced. -/
def waited (n : Nat) (l : Level) (rest : List Event) (s : State) : State :=
  { s with
    rst := if n = 0 then s.rst else false, start := if n = 0 then s.start else false
    lvl := if n = 0 then s.lvl else l, now := s.now + BitVec.ofNat 16 n, inputs := rest }

theorem waited_succ (n : Nat) (l : Level) (es rest : List Event) (s : State) :
    waited n l rest (latch ⟨false, false, 1, l⟩ { s with inputs := es }) = waited (n + 1) l rest s := by
  simp only [waited, latch, advance, counterWidth, ↓reduceIte, Nat.succ_ne_zero, ite_self]
  congr 1
  rw [BitVec.add_assoc, ← BitVec.ofNat_add, Nat.add_comm]

/-- A wait: if the block does not move on any of `n` samples at level `l`, one tick apart, the run only takes them. -/
theorem run_wait {l : Level} {rest : List Event} :
    ∀ (n : Nat) (s : State), s.inputs = List.replicate n (lineSample l) ++ rest →
      (∀ k, k < n → Move params (waited (k + 1) l (List.replicate (n - (k + 1)) (lineSample l) ++ rest) s)
        (waited (k + 1) l (List.replicate (n - (k + 1)) (lineSample l) ++ rest) s)) →
      run n s = .next (waited n l rest s) := by
  intro n
  induction n with
  | zero =>
    intro s hi _
    have : s.inputs = rest := hi
    subst this
    simp [waited]
  | succ n ih =>
    intro s hi hm
    rw [List.replicate_succ, List.cons_append] at hi
    rw [run_succ, step_sample hi rfl]
    have h0 := hm 0 (Nat.succ_pos n)
    rw [← waited_succ 0 l (List.replicate n (lineSample l) ++ rest)] at h0
    have e0 : ∀ u : State, u.inputs = List.replicate n (lineSample l) ++ rest →
        waited 0 l (List.replicate (n + 1 - (0 + 1)) (lineSample l) ++ rest) u = u := by
      intro u hu
      rw [Nat.zero_add, Nat.add_sub_cancel, ← hu]
      simp [waited]
    rw [e0 _ rfl] at h0
    rw [blockStep_of_move h0, andThen_of_next, ih _ rfl, waited_succ]
    intro k hk
    have hk' := hm (k + 1) (Nat.succ_lt_succ hk)
    rw [waited_succ, show n - (k + 1) = n + 1 - (k + 1 + 1) by omega]
    exact hk'

end Sys2Proof.Machine
end

