-- ==== Sys2Proof/Tests/Slice0.lean ====
section
/-! SUPPORT. Tests of the model. Expected results come from spec/95_test_vectors.md (the row is named in each docstring)
or from the rule named there; then the witnesses that the hypotheses of the obligations can be met. -/

namespace Sys2Proof.Tests

open Sys2Proof Sys2Proof.Machine

/-- The next state of an outcome. -/
def after (o : Outcome) : Option State :=
  match o with
  | .next s => some s
  | _ => none

/-- The refusal of an outcome. -/
def refusal (o : Outcome) : Option Refusal :=
  match o with
  | .refused r => some r
  | _ => none

/-- The row a code decodes to. -/
def row (c : Code) : Option Instr := (decode c).toOption

/-- Why a code is no row. -/
def rowError (c : Code) : Option DecodeError :=
  match decode c with
  | .error e => some e
  | .ok _ => none

/-- A small state: `STATE`, `T0`, the sampled counter and line level; the rest as at reset. -/
def inState (c : BitVec 3) (t0 now : Time) (l : Level) : State :=
  { State.reset with state := c, t0 := t0, now := now, lvl := l }

/-! ## Well-formedness: one ill-formed term for each check -/

theorem test_wf_bit0_low_phase : (Instr.bit0 101 60).wf = false := by decide
theorem test_wf_bit0_high_phase : (Instr.bit0 50 111).wf = false := by decide
theorem test_wf_bit1_low_phase : (Instr.bit1 101 150).wf = false := by decide
theorem test_wf_bit1_short : (Instr.bit1 50 110).wf = false := by decide
theorem test_wf_bit1_long : (Instr.bit1 50 201).wf = false := by decide
theorem test_wf_lowTooLong : (Instr.lowTooLong 100 .low).wf = false := by decide
theorem test_wf_highTooLong : (Instr.highTooLong 200 .high).wf = false := by decide
theorem test_wf_frame_checksum : (Instr.frame 0x23 0 0x14 0 0x38).wf = false := by decide

/-- The default parameters meet the constraints (R6, R12, R17). -/
theorem test_params_wf : params.wf = true := by decide

/-- One ill-formed parameter record for each constraint (R6, R12, R13, R14, R21, D12). -/
theorem test_params_ill_formed :
    ({ tOne := 200 } : Params).wf = false ∧ ({ tWake := 65536 } : Params).wf = false ∧
      ({ tResp := 65536 } : Params).wf = false ∧ ({ tLow := 65536 } : Params).wf = false ∧
      ({ tHigh := 65536 } : Params).wf = false ∧ ({ tickMicros := 0 } : Params).wf = false ∧
      ({ nPayload := 4 } : Params).wf = false ∧ ({ markerBits := 9 } : Params).wf = false := by decide

/-- An instance whose counter runs twice as fast, every threshold rescaled (R131), with a marker of two bits. Its tick is
half a microsecond, written as numerator and denominator. -/
def fast : Params :=
  { width := 17, tickMicros := ⟨1, 2, by decide, by decide⟩, tWake := 36000, tResp := 200, tLow := 200, tHigh := 400,
    tOne := 220, markerBits := 2, markerValue := 3 }

theorem test_fast_wf : fast.wf = true ∧ fast.nPulses = 42 := by decide

/-- Its rescaled thresholds keep their wall-clock meaning (R143): the wake pulse is 18 ms, the bit decision at 110 µs. -/
theorem test_fast_micros : fast.micros fast.tWake = 18000 ∧ fast.micros fast.tOne = 110 := by
  simp only [Params.micros, fast, Rat.mk_eq_divInt, Rat.divInt_eq_div]
  norm_num

/-- Its wake pulse ends at 36000 ticks, also across the wrap of its 17-bit counter (R83, R76). -/
theorem test_fast_wake :
    let s : State fast.width := { State.resetAt 17 with state := stRequestStart, t0 := 0x1FFF0, oe := .output, out := .low }
    (requestStartRule fast { s with now := 0x1FFF0 + 35999 }).state = stRequestStart ∧
      (requestStartRule fast { s with now := 0x1FFF0 + 36000 }).state = stAwaitResponse := by decide

/-- The first of its two marker pulses goes to bit 1 of `FRAME[0]`, the third pulse to bit 7 of `FRAME[1]` (R94). -/
theorem test_fast_place :
    (Frame.zero.place 0 true fast).marker = 2 ∧ (Frame.zero.place 1 true fast).marker = 1 ∧
      (Frame.zero.place 2 true fast).byte1 = 0x80 := by decide

/-! ## Decoding: every row of the opcode table by its code written out -/

/-- `host1` (R50). -/
theorem test_decode_host1 : row (.host1 0b1) = some .read ∧ row (.host1 0b0) = some .nocmd := by decide

/-- `query` (R66). -/
theorem test_decode_query :
    row (.query .busy) = some .busyQ ∧ row (.query .done) = some .doneQ ∧ row (.query .valid) = some .validQ ∧
      row (.query .status) = some .statusQ ∧ row (.query .result) = some .resultQ := by decide

/-- `code3` (R20, R57). -/
theorem test_decode_code3 :
    row (.code3 0b000) = some .stepIdle ∧ row (.code3 0b001) = some .stepRequestStart ∧
      row (.code3 0b010) = some .stepAwaitResponse ∧ row (.code3 0b011) = some .stepBitLow ∧
      row (.code3 0b100) = some .stepBitHigh ∧ row (.code3 0b101) = some .stepValidate ∧
      row (.code3 0b110) = some .reservedState110 ∧ row (.code3 0b111) = some .reservedState111 := by decide

/-- `portop` (R74, R75, R77, R78). -/
theorem test_decode_portop :
    row (.portop (.oe 0b0)) = some (.setDirection .input) ∧ row (.portop (.oe 0b1)) = some (.setDirection .output) ∧
      row (.portop (.out 0b0)) = some (.setLevel .low) ∧ row (.portop (.out 0b1)) = some (.setLevel .high) ∧
      row (.portop .lvl) = some .readLevel ∧ row (.portop .now) = some .now := by decide

/-- `pulse`, at the ends of the bands (R47; vectors A7, A8). -/
theorem test_decode_pulse :
    row (.pulse (.measured 100 0)) = some (.bit0 100 0) ∧ row (.pulse (.measured 50 110)) = some (.bit0 50 110) ∧
      row (.pulse (.measured 50 111)) = some (.bit1 50 111) ∧ row (.pulse (.measured 0 200)) = some (.bit1 0 200) ∧
      row (.pulse (.lowSample 101 .low)) = some (.lowTooLong 101 .low) ∧
      row (.pulse (.highSample 201 .high)) = some (.highTooLong 201 .high) := by decide

/-- `pulse`, beyond the bands (R47). -/
theorem test_decode_pulse_rejects :
    rowError (.pulse (.measured 101 60)) = some .lowPhaseOverLimit ∧
      rowError (.pulse (.measured 50 201)) = some .highPhaseOverLimit ∧
      rowError (.pulse (.lowSample 100 .low)) = some .phaseWithinLimit ∧
      rowError (.pulse (.highSample 200 .high)) = some .phaseWithinLimit := by decide

/-- `frame41`, a frame written out bit by bit (R48; the frame of V42). -/
theorem test_decode_frame :
    row (.frame41 0b1_00100011_00000000_00010100_00000000_00110111) = some (.frame 0x23 0x00 0x14 0x00 0x37) := by
  decide

/-- `frame41`, marker 0 and a wrong checksum (R54; the frames of V45 and V50). -/
theorem test_decode_frame_rejects :
    rowError (.frame41 0b0_00100011_00000000_00010100_00000000_00110111) = some .markerNotOne ∧
      rowError (.frame41 0b1_00100011_00000000_00010100_00000000_00111000) = some .checksumWrong := by decide

/-- `status3` (R24, R105). -/
theorem test_decode_status3 :
    row (.status3 0b000) = some .ok ∧ row (.status3 0b001) = some .noResponse ∧ row (.status3 0b010) = some .stuckLow ∧
      row (.status3 0b011) = some .stuckHigh ∧ row (.status3 0b100) = some .missingStartMarker ∧
      row (.status3 0b101) = some .checksumMismatch ∧ row (.status3 0b110) = some .reservedStatus110 ∧
      row (.status3 0b111) = some .reservedStatus111 := by decide

/-- The bits of an encoded frame, bit 40 first (R48). -/
theorem test_encode_frame :
    encodeFrame 0x23 0x00 0x14 0x00 0x37 = 0b1_00100011_00000000_00010100_00000000_00110111 := by decide

/-- Table words by their width (log entry 4). -/
theorem test_table_words :
    decodeTableWord 1 1 = some .read ∧ decodeTableWord 8 4 = some .stepBitHigh ∧
      decodeTableWord 48 0b1_00100011_00000000_00010100_00000000_00110111 = some (.frame 0x23 0x00 0x14 0x00 0x37) ∧
      decodeTableWord 8 9 = none := by decide

/-- Right after reset a placed host command runs, and a placed step rule (log entry 4). -/
theorem test_fetch_word_runs :
    (after (step (State.reset.withFetchWord 1 1))).map (·.state) = some stRequestStart ∧
      (after (step (State.reset.withFetchWord 8 5))).map (·.status) = some (.error .missingStartMarker) ∧
      refusal (step (State.reset.withFetchWord 8 6)) = some (.reservedState 6) := by decide

/-- A frame placed on the line is acknowledged in the next step (R49, R85). -/
theorem test_fetch_frame :
    (after (step (State.reset.withFetchWord 48 0b1_00100011_00000000_00010100_00000000_00110111))).map
      (fun t => (t.state, t.inputs.length)) = some (stBitLow, 82) := by decide

/-! ## Host commands and queries -/

/-- The state of V3: a held `ChecksumMismatch`. -/
def held : State :=
  { State.reset with
    cnt := 41, t0 := 0x5ADC, frame := ⟨0x01, 0x23, 0, 0x14, 0, 0x14⟩, status := .error .checksumMismatch, done := true
    now := 0x6000, lvl := .low }

/-- A held success (V42). -/
def heldOk : State :=
  { State.reset with cnt := 41, frame := ⟨0x01, 0x23, 0, 0x14, 0, 0x37⟩, done := true }

/-- V4, as the command. -/
theorem test_read : after (exec .read held) = some
    { held with
      state := stRequestStart, cnt := 0, t0 := 0x6000, frame := ⟨0, 0, 0, 0, 0, 0⟩, status := .ok, done := false
      oe := .output, out := .low } := by decide

/-- R68: ignored while busy. -/
theorem test_read_busy : after (exec .read (inState stBitLow 0 5 .low)) = some (inState stBitLow 0 5 .low) := by decide

/-- V3, as the command. -/
theorem test_nocmd : after (exec .nocmd held) = some held := by decide

/-- R27: busy in `VALIDATE`, not in `IDLE`. -/
theorem test_busyQ :
    (after (exec .busyQ (inState stValidate 0 0 .high))).map (·.answer) = some (.bit true) ∧
      (after (exec .busyQ held)).map (·.answer) = some (.bit false) := by decide

/-- R25. -/
theorem test_doneQ :
    (after (exec .doneQ held)).map (·.answer) = some (.bit true) ∧
      (after (exec .doneQ State.reset)).map (·.answer) = some (.bit false) := by decide

/-- R27: `STATUS = 0` alone is not valid. -/
theorem test_validQ :
    (after (exec .validQ heldOk)).map (·.answer) = some (.bit true) ∧
      (after (exec .validQ held)).map (·.answer) = some (.bit false) ∧
      (after (exec .validQ State.reset)).map (·.answer) = some (.bit false) := by decide

/-- R24. -/
theorem test_statusQ : (after (exec .statusQ held)).map (·.answer) = some (.code 5) := by decide

/-- V42, V43: the result column. -/
theorem test_resultQ :
    (after (exec .resultQ heldOk)).map (·.answer) = some (.result (.ok ⟨0x23, 0x00, 0x14, 0x00, 0x37⟩)) ∧
      (after (exec .resultQ held)).map (·.answer) = some (.result (.err .checksumMismatch)) ∧
      (after (exec .resultQ State.reset)).map (·.answer) = some (.result .none) := by decide

/-- R32, R105: `FRAME` is host-readable, marker and all, after an error and in a cycle. -/
theorem test_askFrame :
    (after (step { held with inputs := [.askFrame] })).map (·.answer) =
        some (.frame ⟨0x01, 0x23, 0, 0x14, 0, 0x14⟩) ∧
      (after (step { inState stBitLow 0 5 .low with frame := ⟨0x01, 0x22, 0, 0, 0, 0⟩, inputs := [.askFrame] })).map
        (fun t => (t.answer, t.state, t.now)) = some (.frame ⟨0x01, 0x22, 0, 0, 0, 0⟩, stBitLow, 5) := by decide

/-! ## Port operations and arithmetic -/

/-- A14, A15: the two halves of `DriveLow` and of `Release`. -/
theorem test_setDirection :
    (after (exec (.setDirection .output) State.reset)).map (fun t => (t.oe, t.out)) = some (.output, .high) ∧
      (driveLow State.reset).oe = .output ∧ (driveLow State.reset).out = .low := by decide

theorem test_setLevel :
    (after (exec (.setLevel .low) State.reset)).map (fun t => (t.oe, t.out)) = some (.input, .low) ∧
      (release (driveLow State.reset)).oe = .input ∧ (release (driveLow State.reset)).out = .high := by decide

/-- A16. -/
theorem test_readLevel :
    (after (exec .readLevel (inState stIdle 0 0 .low))).map (·.answer) = some (.level .low) ∧
      (after (exec .readLevel (inState stIdle 0 0 .high))).map (·.answer) = some (.level .high) := by decide

/-- R75: the whole counter, not the elapsed time. -/
theorem test_now : (after (exec .now (inState stIdle 0x1234 0x5884 .low))).map (·.answer) = some (.time 0x5884) := by
  decide

/-- A1 to A6. -/
theorem test_elapsed :
    elapsed (inState 0 0x1234 0x5884 .high) = 18000 ∧ elapsed (inState 0 0xFFF0 0x0005 .high) = 21 ∧
      elapsed (inState 0 0xFFC0 0x0056 .high) = 150 ∧ elapsed (inState 0 0x0000 0xFFFF .high) = 65535 ∧
      elapsed (inState 0 0x0100 0x0100 .high) = 0 ∧ elapsed (inState 0 0x0100 0x00FF .high) = 65535 := by decide

/-- A7, A8. -/
theorem test_bitOf :
    ([0, 1, 109, 110] : List Time).map (bitOf params) = [false, false, false, false] ∧ ([111, 150, 200] : List Time).map (bitOf params) = [true, true, true] := by
  decide

/-- A9. -/
theorem test_positions :
    [0, 1, 8, 9, 16, 17, 24, 25, 32, 33, 40].map (fun k => (bytePos k, bitPos k)) =
      [(0, 0), (1, 7), (1, 0), (2, 7), (2, 0), (3, 7), (3, 0), (4, 7), (4, 0), (5, 7), (5, 0)] := by decide

/-- A10 to A13. -/
theorem test_checksum :
    checksum ⟨1, 0x23, 0x00, 0x14, 0x00, 0⟩ = 0x37 ∧ checksum ⟨1, 0xFF, 0xFF, 0xFF, 0xFF, 0⟩ = 0xFC ∧
      checksum ⟨1, 0x80, 0x80, 0x00, 0x00, 0⟩ = 0x00 ∧ checksum ⟨1, 0x28, 0x00, 0x19, 0x05, 0⟩ = 0x46 := by decide

/-- E7. -/
theorem test_hostFahrenheit : hostFahrenheit 20 = 68 := by decide

/-! ## Step rules -/

/-- V1, V2. -/
theorem test_stepIdle :
    after (exec .stepIdle { State.reset with now := 0 }) = some State.reset ∧
      after (exec .stepIdle { State.reset with now := 0x1234, start := true }) = some
        { State.reset with
          now := 0x1234, start := true, state := stRequestStart, t0 := 0x1234, oe := .output, out := .low } := by decide

/-- The wake pulse of V5 to V9. -/
def waking (t0 now : Time) : State := { inState stRequestStart t0 now .low with oe := .output, out := .low }

/-- V5, V6. -/
theorem test_stepRequestStart :
    after (exec .stepRequestStart (waking 0x1234 0x5883)) = some (waking 0x1234 0x5883) ∧
      after (exec .stepRequestStart (waking 0x1234 0x5884)) = some (inState stAwaitResponse 0x5884 0x5884 .low) := by decide

/-- V8, V9: the counter wraps inside the wake pulse. -/
theorem test_stepRequestStart_wrap :
    after (exec .stepRequestStart (waking 0xFFF0 0x463F)) = some (waking 0xFFF0 0x463F) ∧
      after (exec .stepRequestStart (waking 0xFFF0 0x4640)) = some (inState stAwaitResponse 0x4640 0x4640 .low) := by decide

/-- V12, V13. -/
theorem test_stepAwaitResponse :
    after (exec .stepAwaitResponse (inState stAwaitResponse 0x5884 0x58E8 .low)) = some (inState stBitLow 0x58E8 0x58E8 .low) ∧
      after (exec .stepAwaitResponse (inState stAwaitResponse 0x5884 0x58E8 .high)) =
        some (inState stAwaitResponse 0x5884 0x58E8 .high) := by decide

/-- V14, V15. -/
theorem test_stepAwaitResponse_timeout :
    (after (exec .stepAwaitResponse (inState stAwaitResponse 0x5884 0x58E9 .high))).map
        (fun t => (t.state, t.status.code, t.done)) = some (stIdle, 1, true) ∧
      (after (exec .stepAwaitResponse (inState stAwaitResponse 0x5884 0x58E9 .low))).map
        (fun t => (t.state, t.status.code, t.done)) = some (stIdle, 1, true) := by decide

/-- V19, V20. -/
theorem test_stepBitLow :
    after (exec .stepBitLow (inState stBitLow 0x58A2 0x5906 .high)) = some (inState stBitHigh 0x5906 0x5906 .high) ∧
      after (exec .stepBitLow (inState stBitLow 0x58A2 0x5906 .low)) = some (inState stBitLow 0x58A2 0x5906 .low) := by decide

/-- X1: only `STATE`, `STATUS`, `DONE` change. -/
theorem test_stepBitLow_timeout :
    let s := { inState stBitLow 0x5DE8 0x5E4D .high with cnt := 9, frame := ⟨0x01, 0x23, 0, 0, 0, 0⟩ }
    after (exec .stepBitLow s) = some { s with state := stIdle, status := .error .stuckLow, done := true } := by decide

/-- A high phase in pulse `c` with the frame `f` (V24 to V41). -/
def highPhase (c : BitVec 6) (f : Frame) (t0 now : Time) (l : Level) : State :=
  { inState stBitHigh t0 now l with cnt := c, frame := f }

/-- V27, V28, V36, V38: the threshold, the place, and the last pulse. -/
theorem test_stepBitHigh :
    (after (exec .stepBitHigh (highPhase 0 Frame.zero 0x58D4 0x5942 .low))).map (·.frame) = some Frame.zero ∧
      (after (exec .stepBitHigh (highPhase 0 Frame.zero 0x58D4 0x5943 .low))).map (·.frame) =
        some ⟨0x01, 0, 0, 0, 0, 0⟩ ∧
      after (exec .stepBitHigh (highPhase 9 ⟨0x01, 0x23, 0, 0, 0, 0⟩ 0x1000 0x1096 .low)) = some
        { highPhase 10 ⟨0x01, 0x23, 0x80, 0, 0, 0⟩ 0x1096 0x1096 .low with state := stBitLow } ∧
      after (exec .stepBitHigh (highPhase 40 ⟨0x01, 0x23, 0, 0x14, 0, 0x36⟩ 0x1000 0x1096 .low)) = some
        { highPhase 41 ⟨0x01, 0x23, 0, 0x14, 0, 0x37⟩ 0x1096 0x1096 .low with state := stValidate } := by decide

/-- V30, V31. -/
theorem test_stepBitHigh_limit :
    after (exec .stepBitHigh (highPhase 0 Frame.zero 0x58D4 0x599C .high)) =
        some (highPhase 0 Frame.zero 0x58D4 0x599C .high) ∧
      after (exec .stepBitHigh (highPhase 0 Frame.zero 0x58D4 0x599D .low)) = some
        { highPhase 0 Frame.zero 0x58D4 0x599D .low with
          state := stIdle, status := .error .stuckHigh, done := true } := by decide

/-- A block that validates the frame `f`. -/
def validating (f : Frame) : State := { inState stValidate 0x1096 0x1097 .low with cnt := 41, frame := f }

/-- V42, V48. -/
theorem test_stepValidate_ok :
    after (exec .stepValidate (validating ⟨0x01, 0x23, 0, 0x14, 0, 0x37⟩)) = some
        { validating ⟨0x01, 0x23, 0, 0x14, 0, 0x37⟩ with state := stIdle, done := true } ∧
      (after (exec .stepValidate (validating ⟨0x01, 0xFF, 0xFF, 0xFF, 0xFF, 0xFC⟩))).map result =
        some (.ok ⟨0xFF, 0xFF, 0xFF, 0xFF, 0xFC⟩) := by decide

/-- V46, V50: the marker is checked first, and it is no part of the sum. -/
theorem test_stepValidate_errors :
    (after (exec .stepValidate (validating ⟨0x00, 0x23, 0, 0x14, 0, 0x00⟩))).map result =
        some (.err .missingStartMarker) ∧
      (after (exec .stepValidate (validating ⟨0x01, 0x23, 0, 0x14, 0, 0x38⟩))).map result =
        some (.err .checksumMismatch) := by decide

/-- U6: the reserved codes of `STATE`. -/
theorem test_reserved_state :
    refusal (exec .reservedState110 State.reset) = some (.reservedState 6) ∧
      refusal (exec .reservedState111 State.reset) = some (.reservedState 7) := by decide

/-! ## Pulses, frames, outcomes -/

/-- V34, V35 by the pulse's row: a low phase of 50 and a high phase of 150 in the places of pulses 1 and 8. -/
theorem test_bit1 :
    (after (exec (.bit1 50 150) { inState stBitLow 0x1000 0x1000 .low with cnt := 1, frame := ⟨1, 0, 0, 0, 0, 0⟩ })).map
        (fun t => (t.state, t.cnt, t.frame)) = some (stBitLow, 2, ⟨0x01, 0x80, 0, 0, 0, 0⟩) ∧
      (after (exec (.bit1 50 150) { inState stBitLow 0x1000 0x1000 .low with cnt := 8, frame := ⟨1, 0x22, 0, 0, 0, 0⟩ })).map
        (fun t => (t.state, t.cnt, t.frame)) = some (stBitLow, 9, ⟨0x01, 0x23, 0, 0, 0, 0⟩) := by decide

/-- V39 by the pulse's row. -/
theorem test_bit0 :
    (after (exec (.bit0 50 60)
        { inState stBitLow 0x1000 0x1000 .low with cnt := 40, frame := ⟨0x01, 0x23, 0, 0x14, 0, 0x36⟩ })).map
      (fun t => (t.state, t.cnt, t.frame)) = some (stValidate, 41, ⟨0x01, 0x23, 0, 0x14, 0, 0x36⟩) := by decide

/-- V21, V22: whatever the level. -/
theorem test_lowTooLong :
    (after (exec (.lowTooLong 101 .high) (inState stBitLow 0x58A2 0 .low))).map (fun t => (t.state, t.status.code, t.now)) =
        some (stIdle, 2, 0x5907) ∧
      (after (exec (.lowTooLong 101 .low) (inState stBitLow 0x58A2 0 .low))).map (fun t => (t.state, t.status.code, t.now)) =
        some (stIdle, 2, 0x5907) := by decide

/-- V32. -/
theorem test_highTooLong :
    (after (exec (.highTooLong 201 .high) (inState stBitHigh 0x58D4 0 .high))).map
      (fun t => (t.state, t.status.code, t.cnt, t.now)) = some (stIdle, 3, 0, 0x599D) := by decide

/-- The 41 bits of a frame in order of arrival (R48; the frame of V42). -/
theorem test_frame_bits :
    frameBits 0x23 0x00 0x14 0x00 0x37 =
      [true, false, false, true, false, false, false, true, true, false, false, false, false, false, false, false, false,
       false, false, false, true, false, true, false, false, false, false, false, false, false, false, false, false,
       false, false, true, true, false, true, true, true] := by decide

/-- A frame that reaches an idle block is not received (R82). -/
theorem test_frame_idle :
    (after (exec (.frame 0x23 0x00 0x14 0x00 0x37) State.reset)).map (fun t => (t.state, t.frame)) =
      some (stIdle, Frame.zero) := by decide

/-- A frame that comes too late is not received: the acknowledgment has timed out (V15). -/
theorem test_frame_late :
    (after (exec (.frame 0x23 0x00 0x14 0x00 0x37) (inState stAwaitResponse 0x5884 0x58E9 .low))).map
      (fun t => (t.status.code, t.frame)) = some (1, Frame.zero) := by decide

/-- The outcomes and their codes (R105, R107). -/
theorem test_outcomes :
    [Instr.ok, .noResponse, .stuckLow, .stuckHigh, .missingStartMarker, .checksumMismatch].map
        (fun i => (after (exec i (validating Frame.zero))).map fun t => (t.state, t.status.code, t.done)) =
      [some (stIdle, 0, true), some (stIdle, 1, true), some (stIdle, 2, true), some (stIdle, 3, true),
       some (stIdle, 4, true), some (stIdle, 5, true)] := by decide

/-- U7: the reserved codes of `STATUS`. -/
theorem test_reserved_status :
    refusal (exec .reservedStatus110 State.reset) = some (.reservedStatus 6) ∧
      refusal (exec .reservedStatus111 State.reset) = some (.reservedStatus 7) := by decide

/-! ## The step -/

/-- X3, with `start = 1` in the same step (R126: `rst` wins). -/
theorem test_rst :
    let s := { highPhase 20 ⟨0x01, 0x23, 0, 0, 0, 0⟩ 0 9 .high with
      inputs := [.sample { rst := true, start := true, ticks := 1, lvl := .low }] }
    (after (step s)).map (fun t => (t.state, t.cnt, t.frame, t.done)) = some (stIdle, 0, Frame.zero, false) ∧
      (after (step s)).map (fun t => (t.oe, t.out, t.now)) = some (.input, .high, 10) := by decide

/-- The counter wraps at `2^16` (R36). -/
theorem test_counter_wraps :
    (after (step { State.reset with
        now := 0xFFFF, inputs := [.sample { rst := false, start := false, ticks := 1, lvl := .low }] })).map
      (·.now) = some 0 := by decide

/-! ## Witnesses: the hypotheses of the obligations can be met, at the ends of their ranges -/

/-- The invariants of a concrete state, as one decidable statement. -/
theorem inv_intro {s : State}
    (h : ((s.oe = .output ↔ s.state = stRequestStart) ∧ (s.oe = .output → s.out = .low) ∧
        (s.oe = .input → s.out = .high) ∧ (s.done = true → s.state = stIdle)) ∧
      (valid s = true →
        s.frame.marker = 1 ∧
          (s.frame.byte1.toNat + s.frame.byte2.toNat + s.frame.byte3.toNat + s.frame.byte4.toNat) % 256 =
            s.frame.byte5.toNat ∧
          s.cnt = 41) ∧
      (s.cnt.toNat ≤ 41 ∧ (s.state = stBitLow ∨ s.state = stBitHigh → s.cnt.toNat ≤ 40) ∧
        (s.state = stValidate → s.cnt = 41) ∧ (s.state = stRequestStart ∨ s.state = stAwaitResponse → s.cnt = 0)) ∧
      s.state.toNat ≤ 5 ∧ (s.done = false → s.status = .ok) ∧
      (∀ k, k < 41 → s.cnt.toNat ≤ k → s.frame.pulseBit k = false) ∧ s.frame.marker.toNat ≤ 1) : s.Inv where
  drives_iff := h.1.1
  drives_low := h.1.2.1
  rests_high := h.1.2.2.1
  done_idle := h.1.2.2.2
  valid_frame := h.2.1
  cnt_le := h.2.2.1.1
  cnt_loop := h.2.2.1.2.1
  cnt_validate := h.2.2.1.2.2.1
  cnt_start := h.2.2.1.2.2.2
  state_legal := h.2.2.2.1
  status_ok := h.2.2.2.2.1
  unreceived := fun k h1 h2 => h.2.2.2.2.2.1 k h2 h1
  marker_le := h.2.2.2.2.2.2

/-- A sample without `rst`, one tick after the one before. -/
def tick (start : Bool) (l : Level) : Sample := { rst := false, start := start, ticks := 1, lvl := l }

/-- `s` with one sample queued. -/
def withTick (s : State) (start : Bool) (l : Level) : State := { s with inputs := [.sample (tick start l)] }

theorem witness_decodeOfEncode :
    (Instr.bit0 100 110).wf = true ∧ (Instr.bit1 100 200).wf = true ∧ (Instr.lowTooLong 101 .low).wf = true ∧
      (Instr.highTooLong 65535 .high).wf = true ∧ (Instr.frame 0x23 0 0x14 0 0x37).wf = true := by decide

theorem witness_encodeOfDecode :
    decode (.pulse (.measured 100 111)) = .ok (.bit1 100 111) ∧
      decode (.frame41 0b1_00100011_00000000_00010100_00000000_00110111) = .ok (.frame 0x23 0 0x14 0 0x37) :=
  ⟨rfl, rfl⟩

theorem witness_measuredLengths : ((100 : Time).toNat ≤ 100) ∧ 100 < (101 : Time).toNat := by decide

theorem witness_stepRuns :
    (withTick (inState stBitLow 0 5 .low) false .high).inputs = [.sample (tick false .high)] ∧
      (tick false .high).rst = false ∧ decode (.code3 (inState stBitLow 0 5 .low).state) = .ok .stepBitLow :=
  ⟨rfl, rfl, rfl⟩

theorem witness_stepAnswers : ({ held with inputs := [.ask .result] } : State).inputs = .ask .result :: [] := rfl

theorem witness_stepWithoutQueuedInput : State.reset.inputs = [] := rfl

theorem witness_rst :
    ∃ x : Sample, ({ held with inputs := [.sample x] } : State).inputs = .sample x :: [] ∧ x.rst = true :=
  ⟨⟨true, true, 1, .low⟩, rfl, rfl⟩

theorem witness_readBegins : busy held = false ∧ busy (inState stValidate 0 0 .low) = true := by decide

theorem witness_elapsedCounts :
    (inState stIdle 0xFFF0 0x0005 .low).now = (inState stIdle 0xFFF0 0x0005 .low).t0 + BitVec.ofNat 16 21 ∧
      (inState stIdle 7 7 .low).now = (inState stIdle 7 7 .low).t0 + BitVec.ofNat 16 65536 := by decide

theorem witness_requestStart :
    18000 ≤ (waking 0xFFF0 0x4640).ticksSince ∧ (waking 0xFFF0 0x463F).ticksSince < 18000 := by decide

theorem witness_awaitResponse :
    100 < (inState stAwaitResponse 0x5884 0x58E9 .low).ticksSince ∧
      (inState stAwaitResponse 0x5884 0x58E8 .low).ticksSince ≤ 100 ∧
      (inState stAwaitResponse 0x5884 0x58E8 .low).lvl = .low ∧
      (inState stAwaitResponse 0x5884 0x58E8 .high).ticksSince ≤ 100 ∧
      (inState stAwaitResponse 0x5884 0x58E8 .high).lvl = .high := by decide

theorem witness_bitLow :
    100 < (inState stBitLow 0x58A2 0x5907 .high).ticksSince ∧
      (inState stBitLow 0x58A2 0x5906 .high).ticksSince ≤ 100 ∧ (inState stBitLow 0x58A2 0x5906 .high).lvl = .high ∧
      (inState stBitLow 0x58A2 0x5906 .low).ticksSince ≤ 100 ∧
      (inState stBitLow 0x58A2 0x5906 .low).lvl = .low := by decide

theorem witness_bitHigh :
    let s := highPhase 40 ⟨0x01, 0x23, 0, 0x14, 0, 0x36⟩ 0x58D4 0x599C .low
    s.cnt.toNat ≤ 40 ∧ s.ticksSince ≤ 200 ∧ s.lvl = .low ∧ { s with lvl := .high }.ticksSince ≤ 200 ∧
      200 < { s with now := 0x599D }.ticksSince := by decide

theorem witness_bitHighBeyond :
    let s := highPhase 41 Frame.zero 0 200 .low
    41 ≤ s.cnt.toNat ∧ s.ticksSince ≤ 200 ∧ s.lvl = .low := by decide

theorem witness_outcomes : ∃ (k : ErrorKind) (t : State),
    t = { held with status := .error k, done := true, state := 0 } := ⟨.stuckLow, _, rfl⟩

theorem witness_reserved :
    let s := withTick (inState 6 0 0 .low) false .low
    s.inputs = .sample (tick false .low) :: [] ∧ (tick false .low).rst = false ∧ 6 ≤ s.state.toNat := by decide

/-- A block in the low phase of pulse 40. -/
def lastPulse : State :=
  { inState stBitLow 0x1000 0x1000 .low with cnt := 40, frame := ⟨0x01, 0x23, 0, 0x14, 0, 0x36⟩ }

theorem witness_pulse :
    lastPulse.state = 3 ∧ lastPulse.cnt.toNat ≤ 40 ∧ (100 : Time).toNat ≤ 100 ∧
      (111 ≤ (111 : Time).toNat ∧ (200 : Time).toNat ≤ 200) ∧ (110 : Time).toNat ≤ 110 := by decide

theorem witness_phasesTooLong :
    lastPulse.state = 3 ∧ 101 ≤ (101 : Time).toNat ∧ (highPhase 0 Frame.zero 0 0 .low).state = 4 ∧
      201 ≤ (201 : Time).toNat := by decide

theorem witness_waveforms :
    (inState stValidate 0 0 .low).state.toNat ≤ 5 ∧ 6 ≤ (inState 6 0 0 .low).state.toNat := by decide

/-- A block that has just released the line. -/
def released : State := inState stAwaitResponse 0x5884 0x5884 .high

theorem released_inv : released.Inv := inv_intro (by decide)

theorem witness_frame :
    ({ released with now := 0x58E8 } : State).Inv ∧ ({ released with now := 0x58E8 } : State).ticksSince ≤ 100 ∧
      released.state = 2 ∧ (inState stBitLow 0 100 .low).Inv ∧ (inState stBitLow 0 100 .low).ticksSince ≤ 100 ∧
      (inState stBitLow 0 100 .low).state = 3 ∧ (inState stBitLow 0 100 .low).cnt = 0 :=
  ⟨inv_intro (by decide), by decide, rfl, inv_intro (by decide), by decide, rfl, rfl⟩

/-- The longest pulse that is accepted, from its second low sample on. -/
def longPulse : State :=
  { lastPulse with inputs := lows (100 - 1) ++ highs 200 ++ lineSample .low :: [] }

theorem witness_pulseBySamples :
    longPulse.state = 3 ∧ longPulse.t0 = longPulse.now ∧ longPulse.rst = false ∧ longPulse.start = false ∧
      (Pulse.mk 100 200).accepted = true ∧ longPulse.inputs = lows (100 - 1) ++ highs 200 ++ lineSample .low :: [] :=
  ⟨rfl, rfl, rfl, rfl, rfl, rfl⟩

/-- The pulses of the frame of V42. -/
def goodPulses : List Pulse := framePulses true 0x23 0x00 0x14 0x00 0x37

/-- A block that is sent that frame, the acknowledgment in the last sample that is in time. -/
def sentGood : State := { released with inputs := traceOf 100 goodPulses 1 ++ .sample (tick true .high) :: [] }

theorem witness_trace :
    sentGood.Inv ∧ sentGood.state = 2 ∧ sentGood.t0 = sentGood.now ∧ goodPulses.length = 41 ∧
      (∀ p ∈ goodPulses, p.accepted = true) ∧ (tick true .high).rst = false ∧
      sentGood.inputs = traceOf 100 goodPulses 1 ++ .sample (tick true .high) :: [] :=
  ⟨inv_intro (by decide), rfl, rfl, by decide, by decide, rfl, rfl⟩

/-- An idle block that is told to read, with `n` samples after the command. -/
def started (n : Nat) : State := { State.reset with inputs := .sample (tick true .high) :: highs n }

theorem highs_isTick (n : Nat) : ∀ e ∈ highs n, e.isTick = true := by
  intro e he
  rw [List.eq_of_mem_replicate he]
  rfl

theorem witness_wakePulse :
    (started 18000).state = 0 ∧ (started 18000).inputs = .sample (tick true .high) :: highs 18000 ∧
      (tick true .high).rst = false ∧ (tick true .high).start = true ∧ (∀ e ∈ highs 18000, e.isTick = true) ∧
      18000 ≤ (highs 18000).length :=
  ⟨rfl, rfl, rfl, rfl, highs_isTick _, Nat.le_of_eq List.length_replicate.symm⟩

theorem witness_waits :
    let e := Event.sample (tick false .low)
    let a := { released with inputs := highs 100 ++ e :: [] }
    let b := { lastPulse with inputs := lows 100 ++ e :: [] }
    let c := { highPhase 0 Frame.zero 7 7 .high with inputs := highs 200 ++ e :: [] }
    e.isTick = true ∧ (a.t0 = a.now ∧ a.state = 2 ∧ a.inputs = highs 100 ++ e :: []) ∧
      (b.t0 = b.now ∧ b.state = 3 ∧ b.inputs = lows 100 ++ e :: []) ∧
      (c.t0 = c.now ∧ c.state = 4 ∧ c.inputs = highs 200 ++ e :: []) :=
  ⟨rfl, ⟨rfl, rfl, rfl⟩, ⟨rfl, rfl, rfl⟩, rfl, rfl, rfl⟩

theorem witness_everyCycle :
    (started 30401).state = 0 ∧ (started 30401).inputs = .sample (tick true .high) :: highs 30401 ∧
      (tick true .high).rst = false ∧ (tick true .high).start = true ∧ (∀ e ∈ highs 30401, e.isTick = true) ∧
      30401 ≤ (highs 30401).length :=
  ⟨rfl, rfl, rfl, rfl, highs_isTick _, Nat.le_of_eq List.length_replicate.symm⟩

/-- A step from the last low phase into the last high phase. -/
def rising : State := withTick lastPulse false .high

theorem rising_step : step rising = .next
    { lastPulse with state := stBitHigh, t0 := 0x1001, now := 0x1001, lvl := .high } := rfl

theorem witness_invariantsHold : rising.Inv ∧ ∃ t, step rising = .next t := ⟨inv_intro (by decide), _, rising_step⟩

/-- In the wake pulse the block drives. -/
theorem witness_blockNeverDrives :
    let s := withTick (waking 0 100) false .low
    s.Inv ∧ ∃ t, run 1 s = .next t ∧ t.oe = .output := ⟨inv_intro (by decide), _, rfl, rfl⟩

theorem witness_stateGraph :
    rising.inputs = .sample (tick false .high) :: [] ∧ (tick false .high).rst = false ∧
      ∃ t, step rising = .next t ∧ t.state ≠ rising.state :=
  ⟨rfl, rfl, _, rising_step, by decide⟩

theorem witness_onlyWriters :
    rising.inputs = .sample (tick false .high) :: [] ∧ (tick false .high).rst = false ∧
      ∃ t, step rising = .next t ∧ t.t0 ≠ rising.t0 :=
  ⟨rfl, rfl, _, rising_step, by decide⟩

theorem witness_startIgnored :
    (busy rising = true ∧ rising.inputs = .sample (tick false .high) :: [] ∧ ∃ t, step rising = .next t) ∧
      (busy (withTick (inState 7 0 0 .low) true .low) = true ∧
        step (withTick (inState 7 0 0 .low) true .low) = .refused (.reservedState 7)) :=
  ⟨⟨rfl, rfl, _, rising_step⟩, rfl, rfl⟩

theorem witness_lineNotSampled :
    (∃ t, step (withTick held true .low) = .next t) ∧ (∃ t, step (withTick (waking 0 100) false .low) = .next t) ∧
      (∃ t, step (withTick (validating Frame.zero) false .high) = .next t) ∧ held.state = 0 ∧
      (waking 0 100).state = 1 ∧ (validating Frame.zero).state = 5 :=
  ⟨⟨_, rfl⟩, ⟨_, rfl⟩, ⟨_, rfl⟩, rfl, rfl, rfl⟩

/-- A shift across the wrap of the counter, in a cycle; in `IDLE` with another `T0`; and of a block that stops. -/
theorem witness_shifted :
    rising.Shifted 0xF000 { rising with now := rising.now + 0xF000, t0 := rising.t0 + 0xF000 } ∧
      held.Shifted 1 { held with now := held.now + 1, t0 := 77 } ∧ (∃ t, step rising = .next t) ∧
      step (withTick (inState 6 0 0 .low) false .low) = .refused (.reservedState 6) :=
  ⟨⟨rfl, fun _ => rfl⟩, ⟨rfl, fun h => absurd rfl h⟩, ⟨_, rising_step⟩, rfl⟩

theorem witness_frameRead : ({ held with inputs := [.askFrame] } : State).inputs = .askFrame :: [] := rfl

/-- A high phase of the instance `fast`, in its last pulse. -/
def fastHigh : State fast.width :=
  { State.resetAt 17 with state := stBitHigh, cnt := 41, t0 := 0x1FFF0, now := 0x1FFF0 + 400, lvl := .low }

/-- The instance `fast` in `IDLE`, without and with `start`. -/
theorem witness_blockInIdle :
    (State.resetAt fast.width).state = 0 ∧ (State.resetAt fast.width).start = false ∧
      { State.resetAt fast.width with start := true }.state = 0 := by decide

theorem witness_rulesFollow :
    fast.wf = true ∧ fastHigh.state = 4 ∧ fastHigh.cnt.toNat < fast.nPulses ∧
      (fastHigh.now.toNat + 2 ^ fast.width - fastHigh.t0.toNat) % 2 ^ fast.width ≤ fast.tHigh ∧ fastHigh.lvl = .low ∧
      fast.tHigh <
        ({ fastHigh with now := 0x1FFF0 + 401 }.now.toNat + 2 ^ fast.width - fastHigh.t0.toNat) % 2 ^ fast.width ∧
      { fastHigh with lvl := .high }.lvl = .high ∧ { fastHigh with state := stRequestStart }.state = 1 ∧
      { fastHigh with state := stAwaitResponse }.state = 2 ∧ { fastHigh with state := stBitLow }.state = 3 ∧
      { fastHigh with state := stValidate }.state = 5 := by decide

/-- The last falling edge of that instance. -/
theorem witness_everyInstance :
    let s : State fast.width := { fastHigh with inputs := [.sample { rst := false, start := false, ticks := 0, lvl := .low }] }
    fast.wf = true ∧ s.InvOf fast ∧ ∃ t, stepOf fast s = .next t ∧ t.state = stValidate :=
  ⟨by decide,
    ⟨by decide, by decide, by decide, by decide, by decide, by decide, by decide, by decide, by decide, by decide,
      by decide⟩, _, rfl, by decide⟩

theorem heldOk_inv : heldOk.Inv := inv_intro (by decide)

theorem witness_resultIsStable :
    let a := { heldOk with inputs := [.ask .result] }
    let b := withTick heldOk false .low
    (a.Inv ∧ a.done = true ∧ a.inputs = .ask .result :: [] ∧
      ∀ x, Event.ask .result = .sample x → x.rst = false ∧ x.start = false) ∧
      (b.Inv ∧ b.done = true ∧ b.inputs = .sample (tick false .low) :: [] ∧
        ∀ x, Event.sample (tick false .low) = .sample x → x.rst = false ∧ x.start = false) :=
  ⟨⟨inv_intro (by decide), rfl, rfl, fun _ h => nomatch h⟩, inv_intro (by decide), rfl, rfl,
    fun x h => by cases h; exact ⟨rfl, rfl⟩⟩

theorem witness_nextReadIsLetIn :
    (withTick held true .low).Inv ∧ (withTick held true .low).done = true ∧
      (withTick held true .low).inputs = .sample (tick true .low) :: [] ∧ (tick true .low).rst = false ∧
      (tick true .low).start = true :=
  ⟨inv_intro (by decide), rfl, rfl, rfl, rfl⟩

end Sys2Proof.Tests
end

/-! # Facts about every parameter record

What the constraints on a parameter record give, the elapsed time and the loop counter as numbers, and the place of a bit,
for any counter width and any marker length (00_scope.md R15, R17; 41_port_ops.md R76; 43_bit_decode.md R94, R95). -/

namespace Sys2Proof.Machine

variable {w : Nat} {p : Params} {s t : State w}

/-- Of the constraints on a parameter record, those on the number of pulses (R13 to R15). -/
theorem wf_pulses (hwf : p.wf = true) : p.nPulses = p.markerBits + 40 ∧ p.markerBits ≤ 8 ∧ p.nPulses < 64 := by
  simp only [Params.wf, Bool.and_eq_true, decide_eq_true_eq, beq_iff_eq] at hwf
  obtain ⟨⟨⟨-, hpayload⟩, hmarker⟩, hpulses⟩ := hwf
  refine ⟨?_, hmarker, hpulses⟩
  rw [Params.nPulses, Params.nDataBits, hpayload]

/-- There is always a pulse to wait for. -/
theorem nPulses_pos (hwf : p.wf = true) : 0 < p.nPulses := by
  have := (wf_pulses hwf).1
  omega

/-- An elapsed time as a number, for a counter of any width (R76). -/
theorem elapsed_toNat_width (s : State w) : (elapsed s).toNat = (s.now.toNat + 2 ^ w - s.t0.toNat) % 2 ^ w := by
  have ht0 := s.t0.isLt
  rw [elapsed, BitVec.toNat_sub, Nat.add_comm s.now.toNat, Nat.sub_add_comm ht0.le]

/-- The loop counter does not wrap while pulses are missing (R21, R95). -/
theorem toNat_cnt_succ (hwf : p.wf = true) {cnt : BitVec 6} (hcnt : cnt.toNat < p.nPulses) :
    (cnt + 1).toNat = cnt.toNat + 1 := by
  have := (wf_pulses hwf).2.2
  have hone : (1 : BitVec 6).toNat = 1 := rfl
  rw [BitVec.toNat_add, hone]
  omega

/-- The loop ends with the last pulse that the parameters ask for (R95). -/
theorem afterPulse_eq (hwf : p.wf = true) {cnt : BitVec 6} (hcnt : cnt.toNat < p.nPulses) :
    afterPulse p cnt = if cnt.toNat + 1 = p.nPulses then stValidate else stBitLow := by
  have hn : (BitVec.ofNat 6 p.nPulses).toNat = p.nPulses := by
    rw [BitVec.toNat_ofNat, Nat.mod_eq_of_lt (wf_pulses hwf).2.2]
  have hlast : cnt + 1 = BitVec.ofNat 6 p.nPulses ↔ cnt.toNat + 1 = p.nPulses := by
    rw [← BitVec.toNat_inj, toNat_cnt_succ hwf hcnt, hn]
  simp only [afterPulse, hlast]

/-- Every pulse has its place in one of the six bytes (R94). -/
theorem bytePos_lt_six (hwf : p.wf = true) {k : Nat} (hk : k < p.nPulses) : bytePos k p < 6 := by
  have := (wf_pulses hwf).1
  rw [bytePos]
  split <;> omega

/-- The place of a pulse is one of the eight bits of its byte (R94). -/
theorem bitPos_lt_eight (hwf : p.wf = true) (k : Nat) : bitPos k p < 8 := by
  have := (wf_pulses hwf).2.1
  rw [bitPos]
  split <;> omega

/-- Reading a bit of the frame buffer after the bit of pulse `k` has been placed: no other bit is written (R91, R94). -/
theorem getLsbD_get_place (hwf : p.wf = true) (f : Frame) {k i q : Nat} (v : Bool) (hk : k < p.nPulses) (hi : i < 6)
    (hq : q < 8) :
    ((f.place k v p).get i).getLsbD q = if i = bytePos k p ∧ q = bitPos k p then v else (f.get i).getLsbD q :=
  getLsbD_get_write f _ i _ q v (bytePos_lt_six hwf hk) hi (bitPos_lt_eight hwf k) hq

end Sys2Proof.Machine

/-! # The invariants for every parameter record

The invariants of R29 speak of seven registers. A step of the block ends the cycle (`finish`), leaves the block listening
in an unfinished cycle, or begins a cycle (`acceptRead`); each of the three keeps them (00_scope.md R17, 10_state.md R29). -/

namespace Sys2Proof.Machine

variable {w : Nat} {p : Params} {s t : State w}

/-- The invariants do not depend on `T0`, the inputs as last sampled, and the model's own fields. -/
theorem State.InvOf.of_registers (h : s.InvOf p) (t0 : BitVec w) (rst start : Bool) (now : BitVec w) (lvl : Level)
    (inputs : List Event) (answer : Answer w) (draws : Nat) :
    State.InvOf p
      { s with
        t0 := t0, rst := rst, start := start, now := now, lvl := lvl, inputs := inputs, answer := answer
        draws := draws } :=
  ⟨h.drives_iff, h.drives_low, h.rests_high, h.done_idle, h.valid_frame, h.cnt_le, h.cnt_loop, h.cnt_validate,
    h.cnt_start, h.state_legal, h.status_ok⟩

theorem State.InvOf.latch (h : s.InvOf p) (x : Sample) : (latch x s).InvOf p := h.of_registers ..

theorem State.InvOf.answerWith (h : s.InvOf p) (a : Answer w) : (answerWith a s).InvOf p := h.of_registers ..

theorem State.InvOf.nextEvent (h : s.InvOf p) : (nextEvent p s).2.InvOf p := by
  cases hi : s.inputs with
  | nil => rw [nextEvent_nil hi]; exact h.of_registers ..
  | cons e es => rw [nextEvent_cons hi]; exact h.of_registers ..

/-- In a cycle nothing has finished yet (R24, R29 items 4 and 5). -/
theorem State.InvOf.unfinished (h : s.InvOf p) (hs : s.state ≠ stIdle) : s.done = false ∧ s.status = .ok := by
  have hd : s.done = false := Bool.eq_false_iff.mpr fun hd => hs (h.done_idle hd)
  exact ⟨hd, h.status_ok hd⟩

/-- Outside the wake pulse the pin is released (R29 items 1 and 3). -/
theorem State.InvOf.released (h : s.InvOf p) (hs : s.state ≠ stRequestStart) : s.oe = .input ∧ s.out = .high := by
  have hoe : s.oe = .input := by
    cases ho : s.oe with
    | input => rfl
    | output => exact absurd (h.drives_iff.mp ho) hs
  exact ⟨hoe, h.rests_high hoe⟩

/-- A block that listens in state `c` and has finished nothing meets the invariants if its loop counter fits `c`. -/
theorem invOf_of_listening {c : BitVec 3} (hd : s.done = false) (hst : s.status = .ok) (hoe : s.oe = .input)
    (hout : s.out = .high) (hs : s.state = c) (hc : c ≠ stRequestStart) (hlegal : c.toNat ≤ 5)
    (hle : s.cnt.toNat ≤ p.nPulses) (hloop : c = stBitLow ∨ c = stBitHigh → s.cnt.toNat < p.nPulses)
    (hvalidate : c = stValidate → s.cnt.toNat = p.nPulses) (hstart : c = stAwaitResponse → s.cnt = 0) :
    s.InvOf p := by
  subst hs
  exact
    { drives_iff := by simpa [hoe] using hc
      drives_low := by simp [hoe]
      rests_high := fun _ => hout
      done_idle := by simp [hd]
      valid_frame := by simp [valid, hd]
      cnt_le := hle
      cnt_loop := hloop
      cnt_validate := hvalidate
      cnt_start := fun h => hstart (h.resolve_left hc)
      state_legal := hlegal
      status_ok := fun _ => hst }

/-- Going from one state of a cycle to a listening one keeps the invariants if the loop counter fits the new state. -/
theorem State.InvOf.goto_stamp (h : s.InvOf p) {c : BitVec 3} (hidle : s.state ≠ stIdle)
    (hpulse : s.state ≠ stRequestStart) (hc : c = stBitLow ∨ c = stBitHigh) (hcnt : s.cnt.toNat < p.nPulses) :
    (goto c (stamp s)).InvOf p := by
  obtain ⟨hd, hst⟩ := h.unfinished hidle
  obtain ⟨hoe, hout⟩ := h.released hpulse
  rcases hc with rfl | rfl <;>
    exact invOf_of_listening hd hst hoe hout rfl (by simp) (by simp) hcnt.le (fun _ => hcnt) (by simp) (by simp)

/-- The end of the wake pulse keeps the invariants (R83). -/
theorem State.InvOf.release (h : s.InvOf p) (hs : s.state = stRequestStart) :
    (goto stAwaitResponse (stamp (release s))).InvOf p := by
  obtain ⟨hd, hst⟩ := h.unfinished (by simp [hs])
  exact invOf_of_listening hd hst rfl rfl rfl (by simp) (by simp) h.cnt_le (by simp) (by simp)
    (fun _ => h.cnt_start (.inl hs))

/-- The end of a pulse keeps the invariants: the loop goes on exactly while pulses are missing (R91, R95). -/
theorem State.InvOf.endPulse (h : s.InvOf p) (hwf : p.wf = true) (hs : s.state = stBitHigh) :
    (endPulse p s).InvOf p := by
  obtain ⟨hd, hst⟩ := h.unfinished (by simp [hs])
  obtain ⟨hoe, hout⟩ := h.released (by simp [hs])
  have hcnt : s.cnt.toNat < p.nPulses := h.cnt_loop (.inr hs)
  have hsucc := toNat_cnt_succ hwf hcnt
  by_cases hlast : s.cnt.toNat + 1 = p.nPulses
  · have hstate : (Machine.endPulse p s).state = stValidate := by simp [afterPulse_eq hwf hcnt, hlast]
    have hcount : (Machine.endPulse p s).cnt.toNat = p.nPulses := hsucc.trans hlast
    exact invOf_of_listening hd hst hoe hout hstate (by simp) (by simp) hcount.le (by simp) (fun _ => hcount) (by simp)
  · have hstate : (Machine.endPulse p s).state = stBitLow := by simp [afterPulse_eq hwf hcnt, hlast]
    have hcount : (Machine.endPulse p s).cnt.toNat < p.nPulses := hsucc.trans_lt (by omega)
    exact invOf_of_listening hd hst hoe hout hstate (by simp) (by simp) hcount.le (fun _ => hcount) (by simp) (by simp)

/-- The end of a cycle keeps the invariants: success is answered only with a complete, valid frame (R99, R107). -/
theorem State.InvOf.finish (h : s.InvOf p) {st : Status} (hs : s.state ≠ stRequestStart)
    (hok : st = .ok →
      s.frame.marker = p.markerValue ∧ checksum s.frame = s.frame.byte5 ∧ s.cnt.toNat = p.nPulses) :
    (finish st s).InvOf p where
  drives_iff := by simp [(h.released hs).1]
  drives_low := h.drives_low
  rests_high := h.rests_high
  done_idle _ := rfl
  valid_frame := by simpa [valid] using hok
  cnt_le := h.cnt_le
  cnt_loop := by simp
  cnt_validate := by simp
  cnt_start := by simp
  state_legal := by simp
  status_ok := by simp

/-- Taking an exception outside the wake pulse keeps the invariants (R107). -/
theorem State.InvOf.raise (h : s.InvOf p) (k : ErrorKind) (hs : s.state ≠ stRequestStart) : (raise k s).InvOf p :=
  h.finish hs nofun

/-- The invariants hold at the beginning of a cycle, whatever the state before (R82). -/
theorem invOf_acceptRead (p : Params) (s : State w) : (acceptRead s).InvOf p where
  drives_iff := by simp
  drives_low _ := rfl
  rests_high := by simp
  done_idle := by simp
  valid_frame := by simp [valid]
  cnt_le := by simp
  cnt_loop := by simp
  cnt_validate := by simp
  cnt_start _ := rfl
  state_legal := by simp
  status_ok _ := rfl

/-- The invariants hold after `rst`, whatever the state before (R126). -/
theorem invOf_resetBlock (p : Params) (s : State w) : (resetBlock s).InvOf p :=
  invOf_of_listening rfl rfl rfl rfl rfl (by simp) (by simp) (by simp) (by simp) (by simp) (fun _ => rfl)

/-- Every edge of the state graph keeps the invariants (R81). -/
theorem move_keeps_invOf (hwf : p.wf = true) (h : s.InvOf p) (m : Move p s t) : t.InvOf p := by
  cases m with
  | noCommand | hold | awaiting | stillLow | stillHigh => exact h
  | accept => exact invOf_acceptRead p s
  | release hs => exact h.release hs
  | noResponse hs | stuckLow hs | stuckHigh hs | badMarker hs | badChecksum hs => exact h.raise _ (by simp [hs])
  | acknowledge hs =>
    have hcnt : s.cnt.toNat < p.nPulses := by
      rw [h.cnt_start (.inr hs)]
      exact nPulses_pos hwf
    exact h.goto_stamp (by simp [hs]) (by simp [hs]) (.inl rfl) hcnt
  | rise hs => exact h.goto_stamp (by simp [hs]) (by simp [hs]) (.inr rfl) (h.cnt_loop (.inl hs))
  | fall hs => exact h.endPulse hwf hs
  | success hs hm hc =>
    exact h.finish (by simp [hs]) fun _ => ⟨(markerOk_iff_marker p s.frame).mp hm, hc, h.cnt_validate hs⟩

/-- Everything a step of the machine can do keeps the invariants. -/
theorem eventMove_keeps_invOf (hwf : p.wf = true) (h : s.InvOf p) {e : Event} (m : EventMove p s e t) : t.InvOf p := by
  cases m with
  | asked | askedFrame => exact h.answerWith _
  | reset => exact invOf_resetBlock p _
  | moved x _ m => exact move_keeps_invOf hwf (h.latch x) m

/-- Settles O48: a step takes the next event, and everything it can do with that event keeps the invariants. -/
theorem invariantsHoldInEveryInstance : Obligations.InvariantsHoldInEveryInstance :=
  fun _ _ _ hwf h hstep => eventMove_keeps_invOf hwf h.nextEvent (stepOf_move hstep)

/-- Settles O49: at reset the block listens in `IDLE` with `CNT` 0. -/
theorem invariantsHoldAtResetOfEveryInstance : Obligations.InvariantsHoldAtResetOfEveryInstance := fun p =>
  invOf_of_listening (c := stIdle) rfl rfl rfl rfl rfl (by simp) (by simp) (Nat.zero_le p.nPulses)
    (by simp) (by simp) (by simp)

/-- Settles O50: a step stops only on a reserved code of `STATE`, which the invariants rule out. -/
theorem everyInstanceStepsUnderItsInvariants : Obligations.EveryInstanceStepsUnderItsInvariants := by
  intro p s h
  cases hstep : stepOf p s with
  | next t => exact ⟨t, rfl⟩
  | fault r => cases r
  | refused r =>
    have hreserved := (stepOf_refused hstep).1
    have hlegal := h.state_legal
    omega

end Sys2Proof.Machine

/-! # The step rules for every parameter record

Each step rule as one equation, read off the edges of the state graph (42_handshake.md R81, R83, R85; 43_bit_decode.md R90,
R91; 44_validate.md R99), and the step of a machine for which no input is queued (00_scope.md R16). -/

namespace Sys2Proof.Machine

variable {w : Nat} {p : Params} {s : State w}

/-- A level is low or high (R18). -/
theorem level_cases (l : Level) : l = .low ∨ l = .high := by cases l <;> simp

/-- The step of `REQUEST_START` (R83). -/
theorem blockStep_requestStart (hs : s.state = stRequestStart) :
    blockStep p s = .next
      (if p.tWake ≤ (elapsed s).toNat then { s with oe := .input, out := .high, t0 := s.now, state := stAwaitResponse }
      else s) := by
  split
  case isTrue he => exact blockStep_of_move (.release hs he)
  case isFalse he => exact blockStep_of_move (.hold hs (Nat.not_le.mp he))

/-- The step of `AWAIT_RESPONSE` (R85). -/
theorem blockStep_awaitResponse (hs : s.state = stAwaitResponse) :
    blockStep p s = .next
      (if p.tResp < (elapsed s).toNat then { s with status := .error .noResponse, done := true, state := stIdle }
      else if s.lvl = .low then { s with t0 := s.now, state := stBitLow }
      else s) := by
  split
  case isTrue he => exact blockStep_of_move (.noResponse hs he)
  case isFalse he =>
    have he := Nat.not_lt.mp he
    rcases level_cases s.lvl with hl | hl
    · rw [if_pos hl]; exact blockStep_of_move (.acknowledge hs he hl)
    · rw [if_neg (by simp [hl])]; exact blockStep_of_move (.awaiting hs he hl)

/-- The step of `BIT_LOW` (R90). -/
theorem blockStep_bitLow (hs : s.state = stBitLow) :
    blockStep p s = .next
      (if p.tLow < (elapsed s).toNat then { s with status := .error .stuckLow, done := true, state := stIdle }
      else if s.lvl = .high then { s with t0 := s.now, state := stBitHigh }
      else s) := by
  split
  case isTrue he => exact blockStep_of_move (.stuckLow hs he)
  case isFalse he =>
    have he := Nat.not_lt.mp he
    rcases level_cases s.lvl with hl | hl
    · rw [if_neg (by simp [hl])]; exact blockStep_of_move (.stillLow hs he hl)
    · rw [if_pos hl]; exact blockStep_of_move (.rise hs he hl)

/-- The falling edge in `BIT_HIGH` while pulses are missing (R91, R95). -/
theorem blockStep_fall (hwf : p.wf = true) (hs : s.state = stBitHigh) (hk : s.cnt.toNat < p.nPulses)
    (he : (elapsed s).toNat ≤ p.tHigh) (hl : s.lvl = .low) :
    blockStep p s = .next
      { s with
        frame := s.frame.place s.cnt.toNat (bitOf p (elapsed s)) p, cnt := s.cnt + 1, t0 := s.now
        state := if s.cnt.toNat + 1 = p.nPulses then stValidate else stBitLow } := by
  rw [blockStep_of_move (.fall hs he hl), endPulse, afterPulse_eq hwf hk]

/-- The checksum comparison of VALIDATE on numbers (R100). -/
theorem checksum_eq_byte5_iff (f : Frame) :
    checksum f = f.byte5 ↔ (f.byte1.toNat + f.byte2.toNat + f.byte3.toNat + f.byte4.toNat) % 256 = f.byte5.toNat := by
  rw [← checksum_toNat, BitVec.toNat_inj]

/-- The step of `VALIDATE` (R99). -/
theorem blockStep_validate (hs : s.state = stValidate) :
    blockStep p s = .next
      { s with
        done := true, state := stIdle
        status :=
          if s.frame.marker ≠ p.markerValue then .error .missingStartMarker
          else if checksum s.frame ≠ s.frame.byte5 then .error .checksumMismatch
          else .ok } := by
  by_cases hm : s.frame.marker = p.markerValue
  · have hm' : markerOk p s.frame = true := (markerOk_iff_marker p s.frame).mpr hm
    by_cases hc : checksum s.frame = s.frame.byte5
    · simp [hm, hc, blockStep_of_move (.success hs hm' hc), finish]
    · simp [hm, hc, blockStep_of_move (.badChecksum hs hm' hc), finish]
  · have hm' : markerOk p s.frame = false := by simpa [markerOk] using hm
    simp [hm, blockStep_of_move (.badMarker hs hm'), finish]

/-- Settles O47: one equation per step rule, with the elapsed time and the checksum as numbers, and the bits of the frame
buffer after the one write of a falling edge. -/
theorem rulesFollowTheParameters : Obligations.RulesFollowTheParameters := by
  intro p s hwf
  simp only [← elapsed_toNat_width]
  refine ⟨blockStep_requestStart, blockStep_awaitResponse, blockStep_bitLow, fun hs hk => ⟨?_, ?_, ?_⟩, fun hs => ?_⟩
  · exact fun he => blockStep_of_move (.stuckHigh hs he)
  · exact fun he hl => blockStep_of_move (.stillHigh hs he hl)
  · exact fun he hl => ⟨_, blockStep_fall hwf hs hk he hl, fun i q hi hq => getLsbD_get_place hwf s.frame _ hk hi hq⟩
  · rw [blockStep_validate hs]
    simp only [ne_eq, checksum_eq_byte5_iff]

/-- Where no input is queued, a step is the step in which the free sample is queued (R16, R34). -/
theorem stepOf_nil (h : s.inputs = []) :
    stepOf p s = stepOf p { s with inputs := [.sample (freeSample p s.draws)], draws := s.draws + 1 } := by
  rw [stepOf, stepOf, nextEvent_nil h, nextEvent_cons rfl, h]

/-- Settles O7: the sample is the free one, and under `SYNC1` its ticks are 1. -/
theorem stepWithoutQueuedInputTakesSomeSample : Obligations.StepWithoutQueuedInputTakesSomeSample :=
  fun s h => ⟨freeSample params s.draws, rfl, stepOf_nil h⟩

end Sys2Proof.Machine

/-! # The invariants for the default parameters

The invariants of R29 for the default parameters are those for any parameter record, with two facts about the frame buffer
beside them: what has not been received is 0, and so are bits 7 to 1 of `FRAME[0]` (10_state.md R23, R29; 30_encoding.md
R48). -/

namespace Sys2Proof.Machine

/-- A frame buffer that has received at most the bits of the first `n` pulses (R23, R48). -/
structure Frame.FilledTo (f : Frame) (n : Nat) : Prop where
  /-- R23: 0 in every bit not yet received. -/
  unreceived : ∀ k, n ≤ k → k < 41 → f.pulseBit k = false
  /-- R48: bits 7 to 1 of `FRAME[0]` are 0. -/
  marker_le : f.marker.toNat ≤ 1

theorem Frame.filledTo_zero (n : Nat) : Frame.zero.FilledTo n := ⟨fun k _ _ => pulseBit_zero k, by decide⟩

/-- Writing bit 0 of a byte that holds at most 1 leaves at most 1. -/
theorem setBit_zero_le_one {b : Byte} (hb : b.toNat ≤ 1) (v : Bool) : (setBit b 0 v).toNat ≤ 1 := by
  have hb' : b = 0 ∨ b = 1 := by bv_omega
  rcases hb' with rfl | rfl <;> cases v <;> decide

/-- The bits of the data bytes are placed outside `FRAME[0]` (R53). -/
theorem place_succ_marker (f : Frame) (k : Nat) (v : Bool) : (f.place (k + 1) v).marker = f.marker := by
  have hpos : bytePos (k + 1) = k / 8 + 1 := by simp [bytePos_eq, Nat.add_comm]
  rw [Frame.place, hpos, Frame.write.eq_def]
  split <;> simp_all

/-- Placing the bit of the next pulse fills the frame buffer by one bit (R94). -/
theorem Frame.FilledTo.place {f : Frame} {n : Nat} (h : f.FilledTo n) (hn : n < 41) (v : Bool) :
    (f.place n v).FilledTo (n + 1) where
  unreceived k hk hk41 := by
    rw [pulseBit_place f k n v hk41 hn, if_neg (by omega)]
    exact h.unreceived k (by omega) hk41
  marker_le := by
    cases n with
    | zero => exact setBit_zero_le_one h.marker_le v
    | succ n => rw [place_succ_marker]; exact h.marker_le

theorem params_markerValue : params.markerValue = 1 := rfl

theorem params_wf : params.wf = true := by decide

/-- The loop counter after the last pulse, as a number (R15, R21). -/
theorem cnt_eq_last_iff (cnt : BitVec 6) : cnt = 41 ↔ cnt.toNat = params.nPulses := BitVec.toNat_inj.symm

variable {s t : State}

/-- What the invariants for the default parameters say beside those for any parameter record (R17, R29). -/
theorem inv_iff : s.Inv ↔ s.InvOf params ∧ s.frame.FilledTo s.cnt.toNat := by
  constructor
  · intro h
    exact
      ⟨{ drives_iff := h.drives_iff
         drives_low := h.drives_low
         rests_high := h.rests_high
         done_idle := h.done_idle
         valid_frame := by simpa only [checksum_eq_byte5_iff, params_markerValue, ← cnt_eq_last_iff] using h.valid_frame
         cnt_le := h.cnt_le
         cnt_loop := fun hs => Nat.lt_succ_of_le (h.cnt_loop hs)
         cnt_validate := fun hs => (cnt_eq_last_iff _).mp (h.cnt_validate hs)
         cnt_start := h.cnt_start
         state_legal := h.state_legal
         status_ok := h.status_ok },
        ⟨h.unreceived, h.marker_le⟩⟩
  · rintro ⟨h, hf⟩
    exact
      { drives_iff := h.drives_iff
        drives_low := h.drives_low
        rests_high := h.rests_high
        done_idle := h.done_idle
        valid_frame := by simpa only [checksum_eq_byte5_iff, params_markerValue, ← cnt_eq_last_iff] using h.valid_frame
        cnt_le := h.cnt_le
        cnt_loop := fun hs => Nat.le_of_lt_succ (h.cnt_loop hs)
        cnt_validate := fun hs => (cnt_eq_last_iff _).mpr (h.cnt_validate hs)
        cnt_start := h.cnt_start
        state_legal := h.state_legal
        status_ok := h.status_ok
        unreceived := hf.unreceived
        marker_le := hf.marker_le }

/-- Only the acceptance of a `READ` and the end of a pulse write the frame buffer or the loop counter, and both leave it
filled as far as the counter says (R82, R91). -/
theorem move_keeps_filledTo (h : s.InvOf params) (hf : s.frame.FilledTo s.cnt.toNat) (m : Move params s t) :
    t.frame.FilledTo t.cnt.toNat := by
  cases m with
  | accept => exact Frame.filledTo_zero _
  | fall hs =>
    have hcnt : s.cnt.toNat < params.nPulses := h.cnt_loop (.inr hs)
    rw [endPulse_cnt, toNat_cnt_succ params_wf hcnt]
    exact hf.place hcnt _
  | _ => exact hf

/-- Everything a step of the machine can do leaves the frame buffer filled as far as the counter says. -/
theorem eventMove_keeps_filledTo (h : s.InvOf params) (hf : s.frame.FilledTo s.cnt.toNat) {e : Event}
    (m : EventMove params s e t) : t.frame.FilledTo t.cnt.toNat := by
  cases m with
  | asked | askedFrame => exact hf
  | reset => exact Frame.filledTo_zero _
  | moved x _ m => exact move_keeps_filledTo (h.latch x) hf m

/-- Taking the next event does not touch the frame buffer and the loop counter. -/
theorem nextEvent_frame_cnt (s : State) :
    (nextEvent params s).2.frame = s.frame ∧ (nextEvent params s).2.cnt = s.cnt := by
  unfold nextEvent
  split <;> exact ⟨rfl, rfl⟩

/-- A step of the machine keeps the invariants. -/
theorem State.Inv.step (h : s.Inv) (hstep : step s = .next t) : t.Inv := by
  obtain ⟨hinv, hf⟩ := inv_iff.mp h
  have m := step_move hstep
  obtain ⟨hframe, hcnt⟩ := nextEvent_frame_cnt s
  refine inv_iff.mpr ⟨eventMove_keeps_invOf params_wf hinv.nextEvent m, eventMove_keeps_filledTo hinv.nextEvent ?_ m⟩
  rwa [hframe, hcnt]

/-- Settles O34: the invariants for any parameter record are kept, and every move leaves the frame buffer filled as far as
`CNT` says. -/
theorem invariantsHoldAfterEveryStep : Obligations.InvariantsHoldAfterEveryStep := fun _ _ h hstep => h.step hstep

/-- Settles O35: at reset the invariants for any parameter record hold, and the frame buffer is 0. -/
theorem invariantsHoldAtReset : Obligations.InvariantsHoldAtReset :=
  inv_iff.mpr ⟨invariantsHoldAtResetOfEveryInstance params, Frame.filledTo_zero _⟩

/-- A run keeps the invariants. -/
theorem State.Inv.run (h : s.Inv) {n : Nat} (hrun : run n s = .next t) : t.Inv := by
  induction n generalizing s with
  | zero => cases hrun; exact h
  | succ n ih =>
    rw [run_succ, andThen_next] at hrun
    obtain ⟨u, hstep, hrun⟩ := hrun
    exact ih (h.step hstep) hrun

/-- Under the invariants the block does not drive the line high (R26). -/
theorem State.Inv.pinSafe (h : s.Inv) : s.PinSafe := by
  rintro ⟨hoe, hout⟩
  simp [h.drives_low hoe] at hout

/-- While the block drives the line, the line has the driven level (R34). -/
theorem lineLevel_of_output (hoe : s.oe = .output) : lineLevel s = s.out := by simp [lineLevel, hoe]

/-- Settles O37: the invariants hold along the run, and they fix `OUT` while `OE` is 1. -/
theorem blockNeverDrivesTheLineHigh : Obligations.BlockNeverDrivesTheLineHigh := by
  intro n s t h hrun
  have ht : t.Inv := h.run hrun
  exact ⟨ht.pinSafe, fun hoe => (lineLevel_of_output hoe).trans (ht.drives_low hoe)⟩

end Sys2Proof.Machine

/-! # The absolute value of the counter

The rules read the counter only through `Elapsed()`, and `T0` only in a cycle: a shift of both is carried through every
operation of a step (10_state.md R22, 20_memory.md R36, 41_port_ops.md R76). -/

namespace Sys2Proof.Machine

/-- Everything an event can do is what the step does with it. -/
theorem stepEvent_of_move {w : Nat} {p : Params} {s t : State w} {e : Event} (m : EventMove p s e t) :
    stepEvent p e s = .next t := by
  cases m with
  | asked | askedFrame => rfl
  | reset x h => simp [stepEvent, h]
  | moved x h m => simp [stepEvent, h, blockStep_of_move m]

variable {d : Time} {s s' t : State}

/-- A shifted state written out: another counter value, and in a cycle the stamp that fits it. -/
theorem shifted_iff :
    s.Shifted d s' ↔
      ∃ t0 : Time, s' = { s with now := s.now + d, t0 := t0 } ∧ (s.state ≠ stIdle → t0 = s.t0 + d) := by
  constructor
  · exact fun h => ⟨s'.t0, h.rest, h.stamp⟩
  · rintro ⟨t0, rfl, hstamp⟩
    exact ⟨rfl, hstamp⟩

namespace State.Shifted

theorem state_eq (h : s.Shifted d s') : s'.state = s.state := by rw [h.rest]
theorem start_eq (h : s.Shifted d s') : s'.start = s.start := by rw [h.rest]
theorem lvl_eq (h : s.Shifted d s') : s'.lvl = s.lvl := by rw [h.rest]
theorem frame_eq (h : s.Shifted d s') : s'.frame = s.frame := by rw [h.rest]
theorem inputs_eq (h : s.Shifted d s') : s'.inputs = s.inputs := by rw [h.rest]

/-- In a cycle the elapsed time is not changed by a shift (R76). -/
theorem elapsed_eq (h : s.Shifted d s') (hs : s.state ≠ stIdle) : elapsed s' = elapsed s := by
  have hnow : s'.now = s.now + d := by rw [h.rest]
  rw [elapsed, elapsed, hnow, h.stamp hs, add_sub_add_right_eq_sub]

/-- A shift is undone by the opposite one. -/
theorem symm (h : s.Shifted d s') : s'.Shifted (-d) s := by
  obtain ⟨t0, rfl, hstamp⟩ := shifted_iff.mp h
  refine shifted_iff.mpr ⟨s.t0, ?_, fun hs => ?_⟩
  · simp only [add_neg_cancel_right]
  · simp only [hstamp hs, add_neg_cancel_right]

/-! Each operation of a step carries a shift through. -/

theorem nextEvent (h : s.Shifted d s') :
    (Machine.nextEvent params s').1 = (Machine.nextEvent params s).1 ∧
      (Machine.nextEvent params s).2.Shifted d (Machine.nextEvent params s').2 := by
  cases hi : s.inputs with
  | nil =>
    rw [nextEvent_nil hi, nextEvent_nil (h.inputs_eq.trans hi)]
    obtain ⟨t0, rfl, hstamp⟩ := shifted_iff.mp h
    exact ⟨rfl, rfl, hstamp⟩
  | cons e es =>
    rw [nextEvent_cons hi, nextEvent_cons (h.inputs_eq.trans hi)]
    obtain ⟨t0, rfl, hstamp⟩ := shifted_iff.mp h
    exact ⟨rfl, rfl, hstamp⟩

theorem latch (h : s.Shifted d s') (x : Sample) : (latch x s).Shifted d (latch x s') := by
  obtain ⟨t0, rfl, hstamp⟩ := shifted_iff.mp h
  refine shifted_iff.mpr ⟨t0, ?_, hstamp⟩
  simp only [Machine.latch, advance, add_right_comm]

theorem answerWith (h : s.Shifted d s') (a : Answer) : (answerWith a s).Shifted d (answerWith a s') := by
  obtain ⟨t0, rfl, hstamp⟩ := shifted_iff.mp h
  exact ⟨rfl, hstamp⟩

theorem resetBlock (h : s.Shifted d s') : (resetBlock s).Shifted d (resetBlock s') := by
  obtain ⟨t0, rfl, -⟩ := shifted_iff.mp h
  exact ⟨rfl, fun hs => absurd rfl hs⟩

theorem finish (h : s.Shifted d s') (st : Status) : (finish st s).Shifted d (finish st s') := by
  obtain ⟨t0, rfl, -⟩ := shifted_iff.mp h
  exact ⟨rfl, fun hs => absurd rfl hs⟩

theorem raise (h : s.Shifted d s') (k : ErrorKind) : (raise k s).Shifted d (raise k s') := h.finish _

theorem acceptRead (h : s.Shifted d s') : (acceptRead s).Shifted d (acceptRead s') := by
  obtain ⟨t0, rfl, -⟩ := shifted_iff.mp h
  exact ⟨rfl, fun _ => rfl⟩

theorem release (h : s.Shifted d s') : (release s).Shifted d (release s') := by
  obtain ⟨t0, rfl, hstamp⟩ := shifted_iff.mp h
  exact ⟨rfl, hstamp⟩

theorem goto_stamp (h : s.Shifted d s') (c : BitVec 3) :
    (goto c (Machine.stamp s)).Shifted d (goto c (Machine.stamp s')) := by
  obtain ⟨t0, rfl, -⟩ := shifted_iff.mp h
  exact ⟨rfl, fun _ => rfl⟩

theorem endPulse (h : s.Shifted d s') (hs : s.state ≠ stIdle) : (endPulse params s).Shifted d (endPulse params s') := by
  have he := h.elapsed_eq hs
  obtain ⟨t0, rfl, -⟩ := shifted_iff.mp h
  refine shifted_iff.mpr ⟨s.now + d, ?_, fun _ => rfl⟩
  simp only [Machine.endPulse, he]

/-- No output that a query reads depends on the counter or on `T0` (R66). -/
theorem output_eq (h : s.Shifted d s') (q : Query) : output q s' = output q s := by
  obtain ⟨t0, rfl, -⟩ := shifted_iff.mp h
  cases q <;> rfl

/-- Every edge of the state graph is taken from the shifted state too (R81). -/
theorem move (h : s.Shifted d s') (m : Move params s t) : ∃ t', Move params s' t' ∧ t.Shifted d t' := by
  have he (hs : s.state ≠ stIdle) := h.elapsed_eq hs
  have hl := h.lvl_eq
  have hf := h.frame_eq
  have hstate := h.state_eq
  cases m with
  | noCommand hs hstart => exact ⟨_, .noCommand (hstate.trans hs) (h.start_eq.trans hstart), h⟩
  | accept hs hstart => exact ⟨_, .accept (hstate.trans hs) (h.start_eq.trans hstart), h.acceptRead⟩
  | hold hs e => exact ⟨_, .hold (hstate.trans hs) (by rwa [he (by simp [hs])]), h⟩
  | release hs e => exact ⟨_, .release (hstate.trans hs) (by rwa [he (by simp [hs])]), h.release.goto_stamp _⟩
  | noResponse hs e => exact ⟨_, .noResponse (hstate.trans hs) (by rwa [he (by simp [hs])]), h.raise _⟩
  | acknowledge hs e l =>
    exact ⟨_, .acknowledge (hstate.trans hs) (by rwa [he (by simp [hs])]) (hl.trans l), h.goto_stamp _⟩
  | awaiting hs e l => exact ⟨_, .awaiting (hstate.trans hs) (by rwa [he (by simp [hs])]) (hl.trans l), h⟩
  | stuckLow hs e => exact ⟨_, .stuckLow (hstate.trans hs) (by rwa [he (by simp [hs])]), h.raise _⟩
  | rise hs e l => exact ⟨_, .rise (hstate.trans hs) (by rwa [he (by simp [hs])]) (hl.trans l), h.goto_stamp _⟩
  | stillLow hs e l => exact ⟨_, .stillLow (hstate.trans hs) (by rwa [he (by simp [hs])]) (hl.trans l), h⟩
  | stuckHigh hs e => exact ⟨_, .stuckHigh (hstate.trans hs) (by rwa [he (by simp [hs])]), h.raise _⟩
  | fall hs e l =>
    exact ⟨_, .fall (hstate.trans hs) (by rwa [he (by simp [hs])]) (hl.trans l), h.endPulse (by simp [hs])⟩
  | stillHigh hs e l => exact ⟨_, .stillHigh (hstate.trans hs) (by rwa [he (by simp [hs])]) (hl.trans l), h⟩
  | badMarker hs hm => exact ⟨_, .badMarker (hstate.trans hs) (by rwa [hf]), h.raise _⟩
  | badChecksum hs hm hc => exact ⟨_, .badChecksum (hstate.trans hs) (by rwa [hf]) (by rwa [hf]), h.raise _⟩
  | success hs hm hc => exact ⟨_, .success (hstate.trans hs) (by rwa [hf]) (by rwa [hf]), h.finish _⟩

/-- Everything an event can do, it does to the shifted state too. -/
theorem eventMove (h : s.Shifted d s') {e : Event} (m : EventMove params s e t) :
    ∃ t', EventMove params s' e t' ∧ t.Shifted d t' := by
  cases m with
  | asked q => exact ⟨_, .asked q, h.output_eq q ▸ h.answerWith _⟩
  | askedFrame => exact ⟨_, .askedFrame, h.frame_eq ▸ h.answerWith _⟩
  | reset x hr => exact ⟨_, .reset x hr, (h.latch x).resetBlock⟩
  | moved x hr m =>
    obtain ⟨t', m', ht⟩ := (h.latch x).move m
    exact ⟨t', .moved x hr m', ht⟩

/-- A step of the machine carries a shift through. -/
theorem step (h : s.Shifted d s') (hstep : Machine.step s = .next t) :
    ∃ t', Machine.step s' = .next t' ∧ t.Shifted d t' := by
  obtain ⟨hevent, hnext⟩ := h.nextEvent
  obtain ⟨t', m', ht⟩ := hnext.eventMove (step_move hstep)
  exact ⟨t', stepEvent_of_move (hevent ▸ m'), ht⟩

/-- A stop is not changed by a shift: were there a next state, the opposite shift would give one here. -/
theorem step_refused (h : s.Shifted d s') {r : Refusal} (hstep : Machine.step s = .refused r) :
    Machine.step s' = .refused r := by
  cases hstep' : Machine.step s' with
  | next t' =>
    obtain ⟨t, ht, -⟩ := h.symm.step hstep'
    simp [hstep] at ht
  | fault f => cases f
  | refused r' => rw [(stepOf_refused hstep').2, (stepOf_refused hstep).2, h.state_eq]

end State.Shifted

/-- Settles O42: every move reads the counter through `Elapsed()` alone, which a shift leaves as it is. -/
theorem absoluteCounterValueIsNeverObserved : Obligations.AbsoluteCounterValueIsNeverObserved :=
  fun _ _ _ h => ⟨fun _ hstep => h.step hstep, fun _ hstep => h.step_refused hstep⟩

end Sys2Proof.Machine

/-! # The outputs

The outputs that the host reads, by their definitions (10_state.md R24 to R28), the stability of a result
(40_host_commands.md R66, R71), and the reserved codes (30_encoding.md R54). -/

namespace Sys2Proof.Machine

theorem ErrorKind.code_ne_zero (k : ErrorKind) : k.code ≠ 0 := by cases k <;> decide

theorem ErrorKind.code_injective : Function.Injective ErrorKind.code := by
  intro a b
  cases a <;> cases b <;> decide

/-- `OK` alone shows the code 0 (R24). -/
theorem Status.code_eq_zero_iff (st : Status) : st.code = 0 ↔ st = .ok := by
  cases st with
  | ok => simp [Status.code]
  | error k => simpa [Status.code] using k.code_ne_zero

/-- No two outcomes share a code (R24). -/
theorem Status.code_injective : Function.Injective Status.code := by
  intro a b h
  cases b with
  | ok => exact (Status.code_eq_zero_iff a).mp h
  | error k =>
    cases a with
    | ok => exact absurd h.symm (ErrorKind.code_ne_zero k)
    | error j => exact congrArg Status.error (ErrorKind.code_injective h)

/-- Settles O13. -/
theorem statusCodesAreTheTable : Obligations.StatusCodesAreTheTable :=
  ⟨rfl, rfl, rfl, rfl, rfl, rfl, Status.code_injective⟩

variable {s : State}

/-- A query returns the output it names and changes nothing else (R66). -/
theorem exec_query (q : Query) {a : Answer} (h : output q s = a) : exec q.instr s = .next { s with answer := a } := by
  subst h
  cases q <;> rfl

/-- `BUSY` on the number in `STATE` (R27). -/
theorem busy_eq_decide (s : State) : busy s = decide (s.state.toNat ≠ 0) := by
  have hzero : s.state = stIdle ↔ s.state.toNat = 0 := BitVec.toNat_inj.symm
  rw [Bool.eq_iff_iff, busy, bne_iff_ne, decide_eq_true_iff, ne_eq, ne_eq, hzero]

/-- `VALID` on the code in `STATUS` (R27). -/
theorem valid_eq_decide (s : State) : valid s = decide (s.done = true ∧ s.status.code = 0) := by
  rw [Bool.eq_iff_iff, valid, Bool.and_eq_true, beq_iff_eq, decide_eq_true_iff, Status.code_eq_zero_iff]

/-- No cycle has finished (R28). -/
theorem result_of_running (hd : s.done = false) : result s = .none := by simp [result, hd]

/-- A cycle has ended in success (R28). -/
theorem result_of_ok (hd : s.done = true) (hst : s.status = .ok) : result s = .ok s.frame.reading := by
  simp [result, hd, hst]

/-- A cycle has ended with an error (R28). -/
theorem result_of_error {k : ErrorKind} (hd : s.done = true) (hst : s.status = .error k) : result s = .err k := by
  simp [result, hd, hst]

/-- Settles O12: each query returns its output, and each output is what R24 to R28 say. -/
theorem queriesReturnTheirOutput : Obligations.QueriesReturnTheirOutput := by
  intro s
  refine ⟨exec_query .busy (congrArg Answer.bit (busy_eq_decide s)), exec_query .done rfl,
    exec_query .valid (congrArg Answer.bit (valid_eq_decide s)), exec_query .status rfl,
    exec_query .result (congrArg Answer.result ?_)⟩
  cases hd : s.done with
  | false => simp [result_of_running hd]
  | true =>
    cases hst : s.status with
    | ok => simp [result_of_ok hd hst, Frame.reading]
    | error k => simp [result_of_error hd hst]

/-- Settles O24: the rows stop by name, and `STATE` selects no rule. -/
theorem reservedCodesAreRefused : Obligations.ReservedCodesAreRefused := fun s =>
  ⟨rfl, rfl, rfl, rfl, fun x es hi hr hs =>
    (step_sample hi hr).trans (blockStep_reserved (s := latch x { s with inputs := es }) hs)⟩

/-- A finished cycle has a result (R28). -/
theorem result_ne_none (hd : s.done = true) : result s ≠ .none := by
  cases hst : s.status with
  | ok => simp [result_of_ok hd hst]
  | error k => simp [result_of_error hd hst]

/-- `RESULT` is a function of `DONE`, `STATUS` and `FRAME` (R28). -/
theorem result_congr {t : State} (hd : t.done = s.done) (hst : t.status = s.status) (hf : t.frame = s.frame) :
    result t = result s := by
  simp only [result, hd, hst, hf]

/-- A step answers the host's read of `FRAME` (R32). -/
theorem step_askFrame {es : List Event} (hi : s.inputs = .askFrame :: es) :
    step s = .next (answerWith (.frame s.frame) { s with inputs := es }) := by
  simp [step, stepOf, nextEvent_cons hi, stepEvent]

/-- In `IDLE` the host's reads, and samples without `start` and `rst`, leave the registers that `RESULT` is read from and
`STATE` as they are (R66, R71). -/
theorem step_idle_keeps_outcome {e : Event} {es : List Event} (hs : s.state = stIdle) (hi : s.inputs = e :: es)
    (hx : ∀ x, e = .sample x → x.rst = false ∧ x.start = false) :
    ∃ t, step s = .next t ∧ t.done = s.done ∧ t.status = s.status ∧ t.frame = s.frame ∧ t.state = stIdle := by
  cases e with
  | ask q => exact ⟨_, (step_ask_exec hi).trans (exec_query q rfl), rfl, rfl, rfl, hs⟩
  | askFrame => exact ⟨_, step_askFrame hi, rfl, rfl, rfl, hs⟩
  | sample x =>
    obtain ⟨hrst, hstart⟩ := hx x rfl
    have m : Move params (latch x { s with inputs := es }) (latch x { s with inputs := es }) := .noCommand hs hstart
    exact ⟨_, (step_sample hi hrst).trans (blockStep_of_move m), rfl, rfl, rfl, hs⟩

/-- Settles O43: a block with a result is in `IDLE`, where these steps leave the outcome alone. -/
theorem resultIsStableUntilTheNextRead : Obligations.ResultIsStableUntilTheNextRead := by
  intro s e es h hd hi hx
  obtain ⟨t, hstep, htd, htst, htf, hts⟩ := step_idle_keeps_outcome (h.done_idle hd) hi hx
  exact ⟨t, hstep, result_congr htd htst htf, result_ne_none hd, htst, htd.trans hd, htf, hts⟩

end Sys2Proof.Machine

/-! # The step on each kind of event

A step runs the rule that `STATE` selects, or answers the host (20_memory.md R30, R32), and under the invariants it always
has a next state; outside the three waits it does not look at the line (42_handshake.md R81). -/

namespace Sys2Proof.Machine

/-- Settles O36: the invariants for the default parameters contain those for any parameter record, under which no step
stops. -/
theorem stepNeverStopsUnderTheInvariants : Obligations.StepNeverStopsUnderTheInvariants :=
  fun s h => everyInstanceStepsUnderItsInvariants params s (inv_iff.mp h).1

/-- In `IDLE`, `REQUEST_START` and `VALIDATE` every edge of the state graph is taken at the other line level too (R81). -/
theorem Move.with_lvl {w : Nat} {p : Params} {s t : State w} (m : Move p s t)
    (hstate : s.state = stIdle ∨ s.state = stRequestStart ∨ s.state = stValidate) (l : Level) :
    Move p { s with lvl := l } { t with lvl := l } := by
  cases m with
  | noCommand hs hstart => exact .noCommand hs hstart
  | accept hs hstart => exact .accept hs hstart
  | hold hs he => exact .hold hs he
  | release hs he => exact .release hs he
  | badMarker hs hm => exact .badMarker hs hm
  | badChecksum hs hm hc => exact .badChecksum hs hm hc
  | success hs hm hc => exact .success hs hm hc
  | noResponse hs | acknowledge hs | awaiting hs | stuckLow hs | rise hs | stillLow hs | stuckHigh hs | fall hs
    | stillHigh hs => simp [hs] at hstate

/-- Settles O41: a reset does not read the line, and in these three states no edge of the state graph does. -/
theorem lineIsNotSampledOutsideTheWaits : Obligations.LineIsNotSampledOutsideTheWaits := by
  intro s t x es l hstate hi hstep
  have m := step_move hstep
  rw [nextEvent_cons hi] at m
  cases m with
  | reset _ hrst => exact step_rst (x := { x with lvl := l }) rfl hrst
  | moved _ hrst m =>
    rw [step_sample (x := { x with lvl := l }) rfl hrst]
    exact blockStep_of_move (m.with_lvl hstate l)

/-- Settles O5: the code in `STATE` decodes to the rule that the step runs. -/
theorem stepRunsTheRuleThatStateSelects : Obligations.StepRunsTheRuleThatStateSelects := by
  intro s x es i hi hrst hdecode
  have hrule : decodeState s.state = i := Except.ok.inj hdecode
  rw [step_sample_exec hi hrst, hrule, ← hrst]
  rfl

/-- Settles O6. -/
theorem stepAnswersTheHost : Obligations.StepAnswersTheHost := fun _ _ _ => step_ask_exec

/-- Settles O45. -/
theorem frameReadReturnsTheRegisters : Obligations.FrameReadReturnsTheRegisters := fun _ _ => step_askFrame

end Sys2Proof.Machine

/-! # Waveforms in legal and in reserved states

A pulse or a frame is a chain of steps of the block: each step answers a legal state from a legal state, so the chain
completes, and the first step stops on a reserved code (20_memory.md R30, 30_encoding.md R54). -/

namespace Sys2Proof.Machine

variable {w : Nat} {p : Params} {s t : State w} {f g : State w → Outcome w}

/-- `f` answers a legal state from every legal state (R29 item 8). -/
def KeepsLegal (f : State w → Outcome w) : Prop :=
  ∀ s, s.state.toNat ≤ 5 → ∃ t, f s = .next t ∧ t.state.toNat ≤ 5

/-- `f` stops as the block does: in no legal state, and by name on a reserved code (R54, R81). -/
structure StopsOnlyOnReserved (f : State w → Outcome w) : Prop where
  keepsLegal : KeepsLegal f
  refused : ∀ s, 6 ≤ s.state.toNat → f s = .refused (.reservedState s.state)

theorem KeepsLegal.andThen (hf : KeepsLegal f) (hg : KeepsLegal g) : KeepsLegal fun s => andThen (f s) g := by
  intro s hs
  obtain ⟨u, hu, hlegal⟩ := hf s hs
  obtain ⟨t, ht, hlegal⟩ := hg u hlegal
  exact ⟨t, andThen_next.mpr ⟨u, hu, ht⟩, hlegal⟩

/-- Preparing the inputs does not change where `f` stops. -/
theorem StopsOnlyOnReserved.comp (hf : StopsOnlyOnReserved f) {prep : State w → State w}
    (hprep : ∀ s, (prep s).state = s.state) : StopsOnlyOnReserved fun s => f (prep s) where
  keepsLegal s hs := hf.keepsLegal (prep s) (by rwa [hprep])
  refused s hs := by rw [hf.refused (prep s) (by rwa [hprep]), hprep]

/-- What follows `f` does not change where it stops, if it completes in legal states. -/
theorem StopsOnlyOnReserved.andThen (hf : StopsOnlyOnReserved f) (hg : KeepsLegal g) :
    StopsOnlyOnReserved fun s => andThen (f s) g where
  keepsLegal := hf.keepsLegal.andThen hg
  refused s hs := by rw [hf.refused s hs, andThen_of_refused]

theorem afterPulse_legal (p : Params) (cnt : BitVec 6) : (afterPulse p cnt).toNat ≤ 5 := by
  rw [afterPulse]
  split <;> decide

/-- Every edge of the state graph ends in a legal state (R81). -/
theorem Move.legal (m : Move p s t) : t.state.toNat ≤ 5 := by
  cases m with
  | noCommand hs | hold hs | awaiting hs | stillLow hs | stillHigh hs => simp [hs]
  | fall => exact afterPulse_legal p s.cnt
  | _ => simp

theorem blockStep_stopsOnlyOnReserved (p : Params) : StopsOnlyOnReserved (w := w) (blockStep p) where
  keepsLegal s hs := by
    obtain ⟨t, ht⟩ := blockStep_total p hs
    exact ⟨t, ht, (blockStep_move ht).legal⟩
  refused s hs := blockStep_reserved hs

/-- A step of the block on a measured sample (R46). -/
theorem sampleStep_stopsOnlyOnReserved (p : Params) (e : BitVec w) (l : Level) :
    StopsOnlyOnReserved fun s => blockStep p (sampleAt e l s) :=
  (blockStep_stopsOnlyOnReserved p).comp (sampleAt_state · e l)

theorem receivePulse_stopsOnlyOnReserved (p : Params) (lm hm : BitVec w) :
    StopsOnlyOnReserved (receivePulse p lm hm) :=
  (sampleStep_stopsOnlyOnReserved p lm .high).andThen (sampleStep_stopsOnlyOnReserved p hm .low).keepsLegal

/-- Pulses of any lengths complete in a legal state, whatever lengths are drawn. -/
theorem receiveBits_keepsLegal (p : Params) (bits : List Bool) : KeepsLegal (w := w) (receiveBits p bits) := by
  induction bits with
  | nil => exact fun s hs => ⟨s, rfl, hs⟩
  | cons b bs ih =>
    intro s hs
    obtain ⟨u, hu, hlegal⟩ := (receivePulse_stopsOnlyOnReserved p (anyLow p s.draws) (anyHigh p s.draws b)).keepsLegal
      { s with draws := s.draws + 1 } hs
    obtain ⟨t, ht, hlegal⟩ := ih u hlegal
    exact ⟨t, andThen_next.mpr ⟨u, hu, ht⟩, hlegal⟩

theorem execFrame_stopsOnlyOnReserved (h f t g c : Byte) : StopsOnlyOnReserved (execFrame h f t g c) :=
  ((blockStep_stopsOnlyOnReserved params).comp (prep := fun s => { s with lvl := .low }) fun _ => rfl).andThen
    (receiveBits_keepsLegal params _)

/-- Settles O27: each of the five rows is a chain of steps of the block, which stops on reserved codes only. -/
theorem waveformsCompleteInEveryLegalState : Obligations.WaveformsCompleteInEveryLegalState := by
  intro s lm hm e l h f t g c i hi
  have hrow : StopsOnlyOnReserved (exec i) := by
    rcases hi with rfl | rfl | rfl | rfl | rfl
    · exact receivePulse_stopsOnlyOnReserved params lm hm
    · exact receivePulse_stopsOnlyOnReserved params lm hm
    · exact sampleStep_stopsOnlyOnReserved params e l
    · exact sampleStep_stopsOnlyOnReserved params e l
    · exact execFrame_stopsOnlyOnReserved h f t g c
  exact ⟨fun hs => (hrow.keepsLegal s hs).imp fun _ => And.left, hrow.refused s⟩

end Sys2Proof.Machine

/-! # The codes of the opcode table

Decoding and encoding are inverse to each other, on the codes of rows and on well-formed instructions (30_encoding.md
R48, R54, R57), and what this says of the measured lengths of a pulse (R46, R47). -/

namespace Sys2Proof.Laws

open Machine

/-- Settles O1: a row without operands has its code spelt out in the table; each row with operands has its own round
trip. -/
theorem decodeOfEncodeIsTheInstruction : Obligations.DecodeOfEncodeIsTheInstruction := by
  intro i hwf
  cases i with
  | setDirection d => exact RoundTrip.setDirection d hwf
  | setLevel v => exact RoundTrip.setLevel v hwf
  | bit0 lm hm => exact RoundTrip.bit0 lm hm hwf
  | bit1 lm hm => exact RoundTrip.bit1 lm hm hwf
  | lowTooLong e l => exact RoundTrip.lowTooLong e l hwf
  | highTooLong e l => exact RoundTrip.highTooLong e l hwf
  | frame h f t g c => exact RoundTrip.frame h f t g c hwf
  | _ => rfl

/-- The instruction `i` is well formed and `c` is its code (R54, R57). -/
def IsCodeOf (c : Code) (i : Instr) : Prop := encode i = c ∧ i.wf = true

theorem bit_zero_or_one (b : BitVec 1) : b = 0 ∨ b = 1 := by
  revert b; decide

theorem toBit_ofBit_direction (b : BitVec 1) : (Direction.ofBit b).toBit = b := by
  rcases bit_zero_or_one b with rfl | rfl <;> rfl

theorem toBit_ofBit_level (b : BitVec 1) : (Level.ofBit b).toBit = b := by
  rcases bit_zero_or_one b with rfl | rfl <;> rfl

theorem isCodeOf_decodeHost1 (b : BitVec 1) : IsCodeOf (.host1 b) (decodeHost1 b) := by
  rcases bit_zero_or_one b with rfl | rfl <;> exact ⟨rfl, rfl⟩

theorem isCodeOf_query (q : Query) : IsCodeOf (.query q) q.instr := by
  cases q <;> exact ⟨rfl, rfl⟩

theorem isCodeOf_decodeState (c : BitVec 3) : IsCodeOf (.code3 c) (decodeState c) := by
  rcases state_cases c with rfl | rfl | rfl | rfl | rfl | rfl | rfl | rfl <;> exact ⟨rfl, rfl⟩

theorem isCodeOf_decodeStatus (c : BitVec 3) : IsCodeOf (.status3 c) (decodeStatus c) := by
  rcases state_cases c with rfl | rfl | rfl | rfl | rfl | rfl | rfl | rfl <;> exact ⟨rfl, rfl⟩

theorem isCodeOf_decodePort (p : PortCode) : IsCodeOf (.portop p) (decodePort p) := by
  cases p with
  | oe d => exact ⟨by simp only [decodePort, encode, toBit_ofBit_direction], rfl⟩
  | out v => exact ⟨by simp only [decodePort, encode, toBit_ofBit_level], rfl⟩
  | lvl | now => exact ⟨rfl, rfl⟩

/-- The branches of `decodePulse` are the bands in which the rows are well formed (R47). -/
theorem isCodeOf_of_decodePulse {p : PulseCode} {i : Instr} (h : decodePulse p = .ok i) : IsCodeOf (.pulse p) i := by
  cases p with
  | measured lm hm =>
    simp only [decodePulse, tLow_lt, tHigh_lt, tOne_lt] at h
    split_ifs at h <;> cases h
    · exact ⟨rfl, by simp [Instr.wf]; omega⟩
    · exact ⟨rfl, by simp [Instr.wf]; omega⟩
  | lowSample e l =>
    simp only [decodePulse] at h
    split_ifs at h with he
    cases h
    exact ⟨rfl, decide_eq_true he⟩
  | highSample e l =>
    simp only [decodePulse] at h
    split_ifs at h with he
    cases h
    exact ⟨rfl, decide_eq_true he⟩

/-- The marker bit and the five bytes of 41 bits, put together again (R48). -/
theorem encodeFrame_extract {x : BitVec 41} (hm : x.getLsbD 40 = true) :
    encodeFrame (x.extractLsb' 32 8) (x.extractLsb' 24 8) (x.extractLsb' 16 8) (x.extractLsb' 8 8)
      (x.extractLsb' 0 8) = x := by
  have hmarker : 1#1 = x.extractLsb' 40 1 := by
    apply BitVec.eq_of_getLsbD_eq
    intro i hi
    obtain rfl : i = 0 := by omega
    simpa using hm.symm
  have append {a b n : Nat} (hab : b = a + 8) : x.extractLsb' b n ++ x.extractLsb' a 8 = x.extractLsb' a (n + 8) :=
    BitVec.extractLsb'_append_extractLsb'_eq_extractLsb' hab
  rw [encodeFrame, hmarker, BitVec.cast_eq, append (a := 32) rfl, append (a := 24) rfl, append (a := 16) rfl,
    append (a := 8) rfl, append (a := 0) rfl]
  exact BitVec.extractLsb'_eq_self

theorem isCodeOf_of_decodeFrame {x : BitVec 41} {i : Instr} (h : decodeFrame x = .ok i) : IsCodeOf (.frame41 x) i := by
  simp only [decodeFrame] at h
  split_ifs at h with hmarker hsum
  cases h
  exact ⟨congrArg Code.frame41 (encodeFrame_extract (by simpa using hmarker)), beq_iff_eq.mpr hsum⟩

/-- Settles O2: in each of the seven formats, what is decoded is well formed and has the code it was decoded from. -/
theorem encodeOfDecodeIsTheCode : Obligations.EncodeOfDecodeIsTheCode := by
  intro c i h
  cases c with
  | host1 b => cases h; exact isCodeOf_decodeHost1 b
  | query q => cases h; exact isCodeOf_query q
  | code3 c => cases h; exact isCodeOf_decodeState c
  | portop p => cases h; exact isCodeOf_decodePort p
  | pulse p => exact isCodeOf_of_decodePulse h
  | frame41 x => exact isCodeOf_of_decodeFrame h
  | status3 c => cases h; exact isCodeOf_decodeStatus c

/-- A code decodes to the instruction whose code it is, exactly if that is well formed (R54, R57). -/
theorem decode_encode_iff (i : Instr) : decode (encode i) = .ok i ↔ i.wf = true :=
  ⟨fun h => (encodeOfDecodeIsTheCode _ i h).2, decodeOfEncodeIsTheInstruction i⟩

/-- Settles O4: inside the limits the bands are those in which the rows are well formed; beyond a limit there is no
pulse. -/
theorem measuredLengthsArePartitioned : Obligations.MeasuredLengthsArePartitioned := by
  refine ⟨fun lm hm hlow => ?_, fun lm hm hlow => ?_, fun e l => ⟨?_, ?_⟩⟩
  · split_ifs with hzero hone
    · exact (decode_encode_iff (.bit0 lm hm)).mpr (by simp [Instr.wf]; omega)
    · exact (decode_encode_iff (.bit1 lm hm)).mpr (by simp [Instr.wf]; omega)
    · simp [decode, decodePulse, Nat.not_lt.mpr hlow, Nat.not_le.mp hone]
  · simp [decode, decodePulse, hlow]
  · exact (decode_encode_iff (.lowTooLong e l)).trans decide_eq_true_iff
  · exact (decode_encode_iff (.highTooLong e l)).trans decide_eq_true_iff

/-- Settles O3: the codes of fixed bits decode by computation. -/
theorem writtenOutCodesDecode : Obligations.WrittenOutCodesDecode := by
  refine ⟨rfl, rfl, rfl, rfl, rfl, ?_, rfl⟩
  exact (decode_encode_iff (.frame 0x23 0x00 0x14 0x00 0x37)).mpr rfl

end Sys2Proof.Laws

/-! # Pulses

What a pulse within its limits does, as one chain of two steps of the block, and what a sample beyond a limit does
(30_encoding.md R46, R47; 43_bit_decode.md R90, R91; 60_exceptions.md R107); the start of a cycle beside them. -/

namespace Sys2Proof.Machine

/-- In `IDLE` no cycle is under way (R27). -/
theorem busy_eq_false_iff {w : Nat} (s : State w) : busy s = false ↔ s.state = stIdle := by simp [busy]

/-- Settles O11: `BUSY` is 0 in `IDLE` alone, where `READ` is looked at. -/
theorem readBeginsACycleInIdleOnly : Obligations.ReadBeginsACycleInIdleOnly := by
  intro s
  refine ⟨fun hidle => ?_, fun hbusy => ?_, rfl⟩
  · exact congrArg Host.Outcome.next (if_pos ((busy_eq_false_iff s).mp hidle))
  · have hs : s.state ≠ stIdle := fun hs => by simp [(busy_eq_false_iff s).mpr hs] at hbusy
    exact congrArg Host.Outcome.next (if_neg hs)

section
variable {w : Nat} {p : Params} {s : State w}

/-- A measured sample shows the elapsed time that was measured (R46). -/
@[simp] theorem elapsed_sampleAt (s : State w) (e : BitVec w) (l : Level) : elapsed (sampleAt e l s) = e :=
  elapsed_of_now _ e rfl

/-- The first high sample of a low phase within its limit (R90). -/
theorem blockStep_sampleAt_high {lm : BitVec w} (hs : s.state = stBitLow) (hlm : lm.toNat ≤ p.tLow) :
    blockStep p (sampleAt lm .high s) = .next (goto stBitHigh (stamp (sampleAt lm .high s))) :=
  blockStep_of_move (.rise hs (by rwa [elapsed_sampleAt]) rfl)

/-- A pulse within its limits: its bit is placed, the pulse counted, and the block stands at the first low sample after
it (R91, R95). -/
theorem receivePulse_accepted (hwf : p.wf = true) {lm hm : BitVec w} (hs : s.state = stBitLow)
    (hcnt : s.cnt.toNat < p.nPulses) (hlm : lm.toNat ≤ p.tLow) (hhm : hm.toNat ≤ p.tHigh) :
    receivePulse p lm hm s = .next
      { s with
        frame := s.frame.place s.cnt.toNat (bitOf p hm) p, cnt := s.cnt + 1, now := s.t0 + lm + hm
        t0 := s.t0 + lm + hm, lvl := .low
        state := if s.cnt.toNat + 1 = p.nPulses then stValidate else stBitLow } := by
  rw [receivePulse, blockStep_sampleAt_high hs hlm, andThen_of_next,
    blockStep_fall hwf (by simp) (by simpa using hcnt) (by simpa using hhm) (by simp), elapsed_sampleAt]
  rfl

end

/-- Settles O26: the timeouts are tested before the level (R115). -/
theorem phasesTooLongRaise : Obligations.PhasesTooLongRaise := by
  intro s e l
  have he : elapsed (sampleAt e l s) = e := elapsed_sampleAt s e l
  exact ⟨fun hs hlong => blockStep_of_move (.stuckLow hs (by rwa [he])),
    fun hs hlong => blockStep_of_move (.stuckHigh hs (by rwa [he]))⟩

/-- A pulse of either row is received in the same way (R46, R47). -/
theorem exec_pulse (s : State) (lm hm : Time) (b : Bool) :
    exec (if b then .bit1 lm hm else .bit0 lm hm) s = receivePulse params lm hm s := by
  cases b <;> rfl

/-- Settles O25: the bands are those of `bitOf`, and the place of the bit is that of R94. -/
theorem pulseWritesItsBit : Obligations.PulseWritesItsBit := by
  intro s lm hm b hs hcnt hlm hband
  obtain ⟨hhm, hbit⟩ : hm.toNat ≤ 200 ∧ bitOf params hm = b := by
    cases b with
    | true =>
      obtain ⟨hlow, hhigh⟩ : 111 ≤ hm.toNat ∧ hm.toNat ≤ 200 := hband
      exact ⟨hhigh, decide_eq_true hlow⟩
    | false =>
      have hhigh : hm.toNat ≤ 110 := hband
      exact ⟨by omega, decide_eq_false (Nat.not_lt.mpr hhigh)⟩
  have hlt : s.cnt.toNat < params.nPulses := Nat.lt_succ_of_le hcnt
  refine ⟨s.frame.place s.cnt.toNat b, ?_, fun i q hi hq => ?_⟩
  · rw [exec_pulse, receivePulse_accepted params_wf hs hlt hlm hhm, hbit]
    have hlast : s.cnt.toNat + 1 = params.nPulses ↔ s.cnt.toNat = 40 := Nat.succ_inj
    simp only [hlast]
  · rw [getLsbD_get_place params_wf s.frame b hlt hi hq, bytePos_eq, bitPos_eq]
    by_cases hzero : s.cnt.toNat = 0 <;> simp [hzero]

end Sys2Proof.Machine

/-! # The bits of a frame

Received bits fill the frame buffer in order of arrival (30_encoding.md R48; 43_bit_decode.md R91, R94); a frame sent as
one row is received whole and validated (44_validate.md R99, R104). -/

namespace Sys2Proof.Machine

/-- The frame buffer after the bits of the pulses `k`, `k + 1`, ... have been placed (R94). -/
def Frame.placeAll (f : Frame) (k : Nat) : List Bool → Frame
  | [] => f
  | b :: bs => (f.place k b).placeAll (k + 1) bs

/-- The bits of earlier pulses keep their values. -/
theorem pulseBit_placeAll_before {j k : Nat} (hj : j < k) (f : Frame) {bs : List Bool} (hk : k + bs.length ≤ 41) :
    (f.placeAll k bs).pulseBit j = f.pulseBit j := by
  induction bs generalizing f k with
  | nil => rfl
  | cons b bs ih =>
    rw [List.length_cons] at hk
    rw [Frame.placeAll, ih (by omega) _ (by omega), pulseBit_place f j k b (by omega) (by omega), if_neg (by omega)]

/-- The bit of each pulse stands at its place (R94). -/
theorem pulseBit_placeAll {i j k : Nat} {b : Bool} (f : Frame) {bs : List Bool} (hk : k + bs.length ≤ 41)
    (hi : bs[i]? = some b) (hj : j = k + i) : (f.placeAll k bs).pulseBit j = b := by
  induction bs generalizing f k i with
  | nil => simp at hi
  | cons b' bs ih =>
    rw [List.length_cons] at hk
    rw [Frame.placeAll]
    cases i with
    | zero =>
      obtain rfl : b' = b := Option.some.inj hi
      rw [pulseBit_placeAll_before (by omega) _ (by omega), pulseBit_place f j k b' (by omega) (by omega)]
      exact if_pos hj
    | succ i => exact ih _ (by omega) hi (by omega)

theorem Frame.FilledTo.placeAll {f : Frame} {k : Nat} (h : f.FilledTo k) {bs : List Bool} (hk : k + bs.length ≤ 41) :
    (f.placeAll k bs).FilledTo (k + bs.length) := by
  induction bs generalizing f k with
  | nil => exact h
  | cons b bs ih =>
    rw [List.length_cons] at hk ⊢
    rw [show k + (bs.length + 1) = k + 1 + bs.length by omega]
    exact ih (h.place (by omega) b) (by omega)

/-- A byte of the payload is its eight bits. -/
theorem frame_byte_ext {f g : Frame} (h : ∀ k, k < 41 → f.pulseBit k = g.pulseBit k) {i : Nat} (hi : i < 5) :
    f.get (i + 1) = g.get (i + 1) := by
  apply BitVec.eq_of_getLsbD_eq
  intro q hq
  have hbyte : bytePos (8 * i + 8 - q) = i + 1 := by rw [bytePos_eq, if_neg (by omega)]; omega
  have hbit : bitPos (8 * i + 8 - q) = q := by rw [bitPos_eq, if_neg (by omega)]; omega
  have := h (8 * i + 8 - q) (by omega)
  rwa [Frame.pulseBit, Frame.pulseBit, hbyte, hbit] at this

/-- A marker byte that holds at most 1 is its bit 0 (R48). -/
theorem marker_ext {a b : Byte} (ha : a.toNat ≤ 1) (hb : b.toNat ≤ 1) (h : a.getLsbD 0 = b.getLsbD 0) : a = b := by
  have ha' : a = 0 ∨ a = 1 := by bv_omega
  have hb' : b = 0 ∨ b = 1 := by bv_omega
  rcases ha' with rfl | rfl <;> rcases hb' with rfl | rfl <;> simp_all

/-- Two frame buffers with clean marker bytes are equal if the bits of all pulses are. -/
theorem frame_ext {f g : Frame} (hf : f.marker.toNat ≤ 1) (hg : g.marker.toNat ≤ 1)
    (h : ∀ k, k < 41 → f.pulseBit k = g.pulseBit k) : f = g := by
  have hbyte {i : Nat} (hi : i < 5) := frame_byte_ext h hi
  have h0 : f.marker = g.marker := marker_ext hf hg (h 0 (by omega))
  have h1 : f.byte1 = g.byte1 := hbyte (i := 0) (by omega)
  have h2 : f.byte2 = g.byte2 := hbyte (i := 1) (by omega)
  have h3 : f.byte3 = g.byte3 := hbyte (i := 2) (by omega)
  have h4 : f.byte4 = g.byte4 := hbyte (i := 3) (by omega)
  have h5 : f.byte5 = g.byte5 := hbyte (i := 4) (by omega)
  cases f; cases g
  simp_all

/-- A frame is sent in the order of the places of its bits (R48, R94). -/
theorem getElem_frameBits (h f t g c : Byte) {k : Nat} (hk : k < 41) :
    (frameBits h f t g c)[k]? = some ((⟨1, h, f, t, g, c⟩ : Frame).pulseBit k) := by
  cases k with
  | zero => simp [Frame.pulseBit, bytePos_eq, bitPos_eq, Frame.get, frameBits]
  | succ k =>
    have hk' : k < 40 := by omega
    interval_cases k <;> rfl

theorem length_frameBits (h f t g c : Byte) : (frameBits h f t g c).length = 41 := by simp [frameBits, byteBits]

/-- The 41 bits of a frame fill an unfilled frame buffer with its bytes (R48). -/
theorem placeAll_frameBits {f : Frame} (hf : f.FilledTo 0) (h f' t g c : Byte) :
    f.placeAll 0 (frameBits h f' t g c) = ⟨1, h, f', t, g, c⟩ := by
  have hlen : 0 + (frameBits h f' t g c).length ≤ 41 := by rw [length_frameBits]
  exact frame_ext (hf.placeAll hlen).marker_le (Nat.le_refl 1) fun k hk =>
    pulseBit_placeAll f hlen (getElem_frameBits h f' t g c hk) (Nat.zero_add k).symm

variable {s : State}

/-- What consecutive pulses with the bits `bs` leave: the registers of the loop (R91, R95), and the block at the first
low sample after them, at the counter value `t` (R46); `d` counts the free values drawn. -/
def State.afterBits (bs : List Bool) (t : Time) (d : Nat) (s : State) : State :=
  { s with
    frame := s.frame.placeAll s.cnt.toNat bs, cnt := s.cnt + BitVec.ofNat 6 bs.length
    state := if s.cnt.toNat + bs.length = 41 then stValidate else stBitLow
    t0 := t, now := t, lvl := .low, draws := d }

/-- The pulses are counted (R21, R91). -/
theorem toNat_cnt_afterBits {bs : List Bool} (hlen : s.cnt.toNat + bs.length ≤ 41) (t : Time) (d : Nat) :
    (s.afterBits bs t d).cnt.toNat = s.cnt.toNat + bs.length := by
  simp only [State.afterBits, BitVec.toNat_add, BitVec.toNat_ofNat]
  omega

/-- While pulses are missing the loop goes on (R95). -/
theorem afterBits_state {bs : List Bool} (hlen : s.cnt.toNat + bs.length < 41) (t : Time) (d : Nat) :
    (s.afterBits bs t d).state = stBitLow := if_neg hlen.ne

/-- After the last pulse the block is in `VALIDATE` (R95). -/
theorem afterBits_last {bs : List Bool} (hlen : s.cnt.toNat + bs.length = 41) (t : Time) (d : Nat) :
    s.afterBits bs t d =
      { s with
        frame := s.frame.placeAll s.cnt.toNat bs, cnt := 41, state := stValidate, t0 := t, now := t, lvl := .low
        draws := d } := by
  have hcnt : s.cnt + BitVec.ofNat 6 bs.length = 41 :=
    BitVec.eq_of_toNat_eq ((toNat_cnt_afterBits hlen.le t d).trans hlen)
  rw [State.afterBits, hcnt, if_pos hlen]

/-- The first bit, then the others. -/
theorem afterBits_cons {b : Bool} {bs : List Bool} (hlen : s.cnt.toNat + (b :: bs).length ≤ 41) (t t' : Time)
    (d d' : Nat) : (s.afterBits [b] t d).afterBits bs t' d' = s.afterBits (b :: bs) t' d' := by
  rw [List.length_cons] at hlen
  have hcnt : (s.cnt + BitVec.ofNat 6 1).toNat = s.cnt.toNat + 1 :=
    toNat_cnt_afterBits (bs := [b]) (by rw [List.length_singleton]; omega) t d
  have hsum : s.cnt + BitVec.ofNat 6 1 + BitVec.ofNat 6 bs.length = s.cnt + BitVec.ofNat 6 (bs.length + 1) := by
    rw [BitVec.add_assoc, Nat.add_comm, BitVec.ofNat_add]
  simp only [State.afterBits, List.length_cons, List.length_nil, Nat.zero_add, hcnt, hsum, Frame.placeAll,
    Nat.add_assoc, Nat.add_comm 1]

/-- A pulse within the default limits leaves its bit (R47, R91). -/
theorem receivePulse_afterBits {lm hm : Time} (hs : s.state = stBitLow) (hcnt : s.cnt.toNat < 41) (hlm : lm.toNat ≤ 100)
    (hhm : hm.toNat ≤ 200) :
    receivePulse params lm hm s = .next (s.afterBits [bitOf params hm] (s.t0 + lm + hm) s.draws) :=
  receivePulse_accepted params_wf hs hcnt hlm hhm

/-- A length that fits the counter, as a number (R6). -/
theorem toNat_time {n : Nat} (hn : n < 65536) : (BitVec.ofNat counterWidth n).toNat = n := by
  rw [BitVec.toNat_ofNat]
  exact Nat.mod_eq_of_lt hn

/-- A drawn low phase is within its limit (R47). -/
theorem anyLow_le (n : Nat) : (anyLow params n : Time).toNat ≤ 100 := by
  have hlt : Config.freeLow n % (params.tLow + 1) < 101 := Nat.mod_lt _ (Nat.succ_pos _)
  rw [anyLow, toNat_time (by omega)]
  omega

/-- A drawn high phase is in the band of its bit (R47). -/
theorem anyHigh_band (n : Nat) (b : Bool) :
    (anyHigh params n b : Time).toNat ≤ 200 ∧ bitOf params (anyHigh params n b : Time) = b := by
  cases b with
  | true =>
    have hlt : Config.freeHigh n % (params.tHigh - params.tOne) < 90 := Nat.mod_lt _ (by decide)
    have htOne : params.tOne = 110 := rfl
    simp only [anyHigh, bitOf_eq, if_true, htOne] at hlt ⊢
    rw [toNat_time (by omega)]
    exact ⟨by omega, decide_eq_true (by omega)⟩
  | false =>
    have hlt : Config.freeHigh n % (params.tOne + 1) < 111 := Nat.mod_lt _ (Nat.succ_pos _)
    simp only [anyHigh, bitOf_eq, Bool.false_eq_true, if_false]
    rw [toNat_time (by omega)]
    exact ⟨by omega, decide_eq_false (by omega)⟩

/-- A drawn pulse leaves its bit, whatever lengths are drawn (log entry 9). -/
theorem receiveBits_cons (hs : s.state = stBitLow) (hcnt : s.cnt.toNat < 41) (b : Bool) (bs : List Bool) :
    ∃ t, receiveBits params (b :: bs) s = receiveBits params bs (s.afterBits [b] t (s.draws + 1)) := by
  obtain ⟨hhm, hbit⟩ := anyHigh_band s.draws b
  have hpulse := receivePulse_afterBits (s := { s with draws := s.draws + 1 }) hs hcnt (anyLow_le s.draws) hhm
  rw [receiveBits, hpulse, hbit, andThen_of_next]
  exact ⟨_, rfl⟩

/-- The pulses drawn for consecutive bits leave these bits (R48). -/
theorem receiveBits_afterBits {b : Bool} {bs : List Bool} (hs : s.state = stBitLow)
    (hlen : s.cnt.toNat + (b :: bs).length ≤ 41) :
    ∃ t d, receiveBits params (b :: bs) s = .next (s.afterBits (b :: bs) t d) := by
  induction bs generalizing b s with
  | nil =>
    obtain ⟨t, h⟩ := receiveBits_cons hs hlen b []
    exact ⟨t, _, h⟩
  | cons b' bs ih =>
    have hlen' := hlen
    rw [List.length_cons, List.length_cons] at hlen'
    have hone : s.cnt.toNat + [b].length < 41 := by rw [List.length_singleton]; omega
    obtain ⟨t, h⟩ := receiveBits_cons hs (by omega) b (b' :: bs)
    obtain ⟨t', d, h'⟩ := ih (b := b') (afterBits_state hone t (s.draws + 1))
      (by rw [toNat_cnt_afterBits hone.le, List.length_singleton, List.length_cons]; omega)
    exact ⟨t', d, by rw [h, h', afterBits_cons hlen]⟩

/-- In a waiting state, the low sample with which the loop begins, or the next one (R85, R90). -/
theorem blockStep_firstLow (hs : s.state = stAwaitResponse ∨ s.state = stBitLow) (he : (elapsed s).toNat ≤ 100) :
    ∃ t, blockStep params { s with lvl := .low } = .next { s with lvl := .low, state := stBitLow, t0 := t } := by
  rcases hs with hs | hs
  · exact ⟨s.now, blockStep_of_move (.acknowledge hs he rfl)⟩
  · have hmove : Move params { s with lvl := .low } { s with lvl := .low } := .stillLow hs he rfl
    exact ⟨s.t0, by rw [blockStep_of_move hmove, ← hs]⟩

/-- The row of `VALIDATE` in its own state (R81). -/
theorem exec_stepValidate (hs : s.state = stValidate) : exec .stepValidate s = blockStep params s := by
  rw [blockStep_eq_exec_fetch, fetch, hs]
  rfl

/-- The step of `VALIDATE` and the result it leaves (R28, R99). -/
theorem blockStep_validate_result (hs : s.state = stValidate) :
    ∃ st, blockStep params s = .next { s with done := true, state := stIdle, status := st } ∧
      result { s with done := true, state := stIdle, status := st } =
        if s.frame.marker ≠ 1 then .err .missingStartMarker
        else if checksum s.frame ≠ s.frame.byte5 then .err .checksumMismatch
        else .ok s.frame.reading := by
  refine ⟨_, blockStep_validate hs, ?_⟩
  rw [params_markerValue]
  split_ifs <;> rfl

/-- The 41 bits of a frame, received from the beginning of the loop (R48). -/
theorem afterBits_frameBits (hcnt : s.cnt = 0) (hf : s.frame.FilledTo 0) (h f t g c : Byte) (t₁ : Time) (d : Nat) :
    s.afterBits (frameBits h f t g c) t₁ d =
      { s with
        frame := ⟨1, h, f, t, g, c⟩, cnt := 41, state := stValidate, t0 := t₁, now := t₁, lvl := .low, draws := d } := by
  have hzero : s.cnt.toNat = 0 := congrArg BitVec.toNat hcnt
  rw [afterBits_last (by rw [hzero, length_frameBits]), hzero, placeAll_frameBits hf]

/-- Settles O28: the row is the first low sample and 41 drawn pulses, which leave the block in `VALIDATE` with the bytes
of the frame. -/
theorem frameIsDecodedAndValidated : Obligations.FrameIsDecodedAndValidated := by
  intro s h f t g c hinv htime hs
  have hcnt : s.cnt = 0 := hs.elim (fun hs => hinv.cnt_start (.inr hs)) And.right
  have hfilled : s.frame.FilledTo 0 := by simpa [hcnt] using (inv_iff.mp hinv).2
  have he : (elapsed s).toNat ≤ 100 := (elapsed_toNat s).trans_le htime
  have hlen : s.cnt.toNat + (frameBits h f t g c).length ≤ 41 := by rw [hcnt, length_frameBits]; exact le_rfl
  obtain ⟨t₀, hfirst⟩ := blockStep_firstLow (hs.imp_right And.left) he
  obtain ⟨t₁, d, hbits⟩ :=
    receiveBits_afterBits (s := { s with lvl := .low, state := stBitLow, t0 := t₀ }) rfl hlen
  have hrow : exec (.frame h f t g c) s = .next (s.afterBits (frameBits h f t g c) t₁ d) :=
    andThen_next.mpr ⟨_, hfirst, hbits⟩
  have hu := afterBits_frameBits hcnt hfilled h f t g c t₁ d
  have hstate := congrArg State.state hu
  obtain ⟨st, hvalidate, hresult⟩ := blockStep_validate_result hstate
  refine ⟨_, _, hrow, by rw [hu], (exec_stepValidate hstate).trans hvalidate, hresult.trans ?_⟩
  simp [hu, checksum_eq, Frame.reading, eq_comm]

end Sys2Proof.Machine

/-! # Traces

A run over the samples of a phase is the one step of the block that ends it; so a pulse sent sample by sample is its
row, and a trace of 41 accepted pulses yields its reading (30_encoding.md R46, R47, R49, R56; 70_reset_and_hazards.md
R140). -/

namespace Sys2Proof.Machine

variable {s : State}

/-- After a sample without `rst` and `start`, with `es` still to come. -/
def State.quiet (es : List Event) (s : State) : State := { s with rst := false, start := false, inputs := es }

/-- A phase of `n` samples in which the block only waits, and the sample that ends it: the run is one step of the block,
on a sample whose `Elapsed()` is the length of the phase (R46). -/
theorem run_phase {n : Nat} {l l' : Level} {rest : List Event} (ht : s.t0 = s.now) (hn : n < 65536)
    (hi : s.inputs = List.replicate n (lineSample l) ++ lineSample l' :: rest)
    (hwait : ∀ u : State, u.state = s.state → u.lvl = l → (elapsed u).toNat ≤ n → Move params u u) :
    run (n + 1) s = blockStep params (sampleAt (BitVec.ofNat 16 (n + 1)) l' (s.quiet rest)) := by
  have hrun : run n s = .next (waited n l (lineSample l' :: rest) s) := by
    refine run_wait n s hi fun k hk => hwait _ rfl (by simp [waited]) ?_
    rw [elapsed_ticks (d := k + 1) (by rw [waited, ht]) (by omega)]
    omega
  rw [run_step hrun, step_sample rfl rfl]
  simp only [waited, latch, sampleAt, State.quiet, advance, counterWidth, ticks_succ, ht]

/-- An accepted pulse has its samples in both phases, within their limits (R47). -/
theorem exists_succ_of_accepted {p : Pulse} (hp : p.accepted = true) :
    ∃ m n, p = ⟨m + 1, n + 1⟩ ∧ m + 1 ≤ 100 ∧ n + 1 ≤ 200 := by
  obtain ⟨low, high⟩ := p
  simp only [Pulse.accepted, Bool.and_eq_true, decide_eq_true_eq] at hp
  obtain ⟨⟨⟨hlow, hlow'⟩, hhigh⟩, hhigh'⟩ := hp
  exact ⟨low - 1, high - 1, by rw [Nat.sub_add_cancel hlow, Nat.sub_add_cancel hhigh], by omega, by omega⟩

/-- A pulse sent sample by sample, from its first low sample on, is received like its row (R46, R90, R91). -/
theorem run_pulse {p : Pulse} {rest : List Event} (hs : s.state = stBitLow) (ht : s.t0 = s.now)
    (hp : p.accepted = true) (hi : s.inputs = lows (p.low - 1) ++ highs p.high ++ lineSample .low :: rest) :
    run (p.low + p.high) s =
      receivePulse params (BitVec.ofNat 16 p.low) (BitVec.ofNat 16 p.high) (s.quiet rest) := by
  obtain ⟨m, n, rfl, hm, hn⟩ := exists_succ_of_accepted hp
  have hlm : (BitVec.ofNat counterWidth (m + 1)).toNat ≤ params.tLow := by rwa [toNat_time (by omega)]
  have hi' : s.inputs =
      List.replicate m (lineSample .low) ++ lineSample .high ::
        (List.replicate n (lineSample .high) ++ lineSample .low :: rest) := by
    rw [hi, List.append_assoc]
    rfl
  have hlow := run_phase ht (by omega) hi' fun u hu hl he => .stillLow (hu.trans hs) (by simp; omega) hl
  rw [blockStep_sampleAt_high (by exact hs) hlm] at hlow
  have hhigh := run_phase (s := goto stBitHigh (stamp (sampleAt (BitVec.ofNat 16 (m + 1)) .high
    (s.quiet (List.replicate n (lineSample .high) ++ lineSample .low :: rest)))))
    rfl (by omega) rfl fun u hu hl he => .stillHigh hu (by simp; omega) hl
  rw [run_add hlow, hhigh, receivePulse, blockStep_sampleAt_high (by exact hs) hlm, andThen_of_next]
  rfl

/-- Settles O29: both sides are the two steps of the block that end the two phases. -/
theorem pulseBySamplesIsItsRow : Obligations.PulseBySamplesIsItsRow := by
  intro s p rest hs ht hrst hstart hp hi
  rw [exec_pulse, run_pulse hs ht hp hi]
  simp only [State.quiet, hrst, hstart]

/-- An accepted pulse sent sample by sample leaves its bit (R91, R93). -/
theorem run_pulse_afterBits {p : Pulse} {rest : List Event} (hs : s.state = stBitLow) (ht : s.t0 = s.now)
    (hcnt : s.cnt.toNat < 41) (hp : p.accepted = true)
    (hi : s.inputs = lows (p.low - 1) ++ highs p.high ++ lineSample .low :: rest) :
    ∃ t, run (p.low + p.high) s = .next ((s.quiet rest).afterBits [p.bit] t s.draws) := by
  rw [run_pulse hs ht hp hi]
  obtain ⟨m, n, rfl, hm, hn⟩ := exists_succ_of_accepted hp
  have hlm : (BitVec.ofNat counterWidth (m + 1)).toNat = m + 1 := toNat_time (by omega)
  have hhm : (BitVec.ofNat counterWidth (n + 1)).toNat = n + 1 := toNat_time (by omega)
  have hbit : bitOf params (BitVec.ofNat counterWidth (n + 1)) = Pulse.bit ⟨m + 1, n + 1⟩ := by
    rw [bitOf_eq, hhm]
    rfl
  rw [← hbit]
  exact ⟨_, receivePulse_afterBits hs hcnt (hlm.trans_le hm) (hhm.trans_le hn)⟩

/-- Accepted pulses and a low sample after them begin with a low sample. -/
theorem pulseSamples_begin {ps : List Pulse} (hps : ∀ p ∈ ps, p.accepted = true) (rest : List Event) :
    ∃ q, pulseSamples ps ++ lineSample .low :: rest = lineSample .low :: q := by
  cases ps with
  | nil => exact ⟨rest, rfl⟩
  | cons p ps =>
    obtain ⟨m, n, rfl, -⟩ := exists_succ_of_accepted (hps p List.mem_cons_self)
    exact ⟨_, rfl⟩

/-- Where the first low sample of the first pulse has been taken, the queue holds the rest of that pulse, the first low
sample after it, and what follows. -/
theorem pulseSamples_cons_tail {p : Pulse} {ps : List Pulse} {es rest : List Event}
    (hps : ∀ q ∈ p :: ps, q.accepted = true)
    (hi : lineSample .low :: es = pulseSamples (p :: ps) ++ lineSample .low :: rest) :
    ∃ es', es = lows (p.low - 1) ++ highs p.high ++ lineSample .low :: es' ∧
      lineSample .low :: es' = pulseSamples ps ++ lineSample .low :: rest := by
  obtain ⟨hp, hps⟩ := List.forall_mem_cons.mp hps
  obtain ⟨es', hes'⟩ := pulseSamples_begin hps rest
  obtain ⟨m, n, rfl, -⟩ := exists_succ_of_accepted hp
  refine ⟨es', ?_, hes'.symm⟩
  rw [pulseSamples, List.flatMap_cons, ← pulseSamples, List.append_assoc, hes'] at hi
  exact List.tail_eq_of_cons_eq hi

/-- Consecutive accepted pulses, sent sample by sample from the first low sample on, leave their bits (R91, R95). -/
theorem run_pulses {p : Pulse} {ps : List Pulse} {rest : List Event} (hs : s.state = stBitLow) (ht : s.t0 = s.now)
    (hlen : s.cnt.toNat + (p :: ps).length ≤ 41) (hps : ∀ q ∈ p :: ps, q.accepted = true)
    (hi : lineSample .low :: s.inputs = pulseSamples (p :: ps) ++ lineSample .low :: rest) :
    ∃ t, run (pulseTicks (p :: ps)) s =
      .next ((s.quiet rest).afterBits ((p :: ps).map Pulse.bit) t s.draws) := by
  induction ps generalizing p s with
  | nil =>
    obtain ⟨es, hes, hrest⟩ := pulseSamples_cons_tail hps hi
    obtain rfl : es = rest := List.tail_eq_of_cons_eq hrest
    exact run_pulse_afterBits hs ht hlen (hps p List.mem_cons_self) hes
  | cons p' ps ih =>
    obtain ⟨es, hes, hrest⟩ := pulseSamples_cons_tail hps hi
    obtain ⟨hp, hps'⟩ := List.forall_mem_cons.mp hps
    have hlen' : s.cnt.toNat + 1 + (p' :: ps).length ≤ 41 := by
      rw [List.length_cons] at hlen
      omega
    have hone : s.cnt.toNat + [p.bit].length < 41 := by
      rw [List.length_cons] at hlen'
      rw [List.length_singleton]
      omega
    obtain ⟨t, hfirst⟩ := run_pulse_afterBits hs ht (Nat.lt_of_succ_lt hone) hp hes
    obtain ⟨t', hothers⟩ := ih (p := p') (afterBits_state (s := s.quiet es) hone t s.draws) rfl
      ((congrArg (· + _) (toNat_cnt_afterBits (s := s.quiet es) hone.le t s.draws)).trans_le hlen') hps' hrest
    have hticks : pulseTicks (p :: p' :: ps) = p.low + p.high + pulseTicks (p' :: ps) := by simp [pulseTicks]
    rw [hticks, run_add hfirst, hothers]
    have hbits := afterBits_cons (s := s.quiet rest) (b := p.bit) (bs := (p' :: ps).map Pulse.bit)
      (by rwa [← List.map_cons, List.length_map]) t t' s.draws s.draws
    exact ⟨t', congrArg Host.Outcome.next hbits⟩

/-- The acknowledgment at sample `a` and accepted pulses after it leave the bits of the pulses (R49, R56, R85). -/
theorem run_trace {a : Nat} {p : Pulse} {ps : List Pulse} {rest : List Event} (hs : s.state = stAwaitResponse)
    (hcnt : s.cnt.toNat = 0) (ht : s.t0 = s.now) (ha : 1 ≤ a) (hle : a ≤ 100) (hlen : (p :: ps).length ≤ 41)
    (hps : ∀ q ∈ p :: ps, q.accepted = true) (hi : s.inputs = traceOf a (p :: ps) 1 ++ rest) :
    ∃ t, run (a + pulseTicks (p :: ps)) s =
      .next ((s.quiet rest).afterBits ((p :: ps).map Pulse.bit) t s.draws) := by
  obtain ⟨n, rfl⟩ : ∃ n, a = n + 1 := ⟨a - 1, by omega⟩
  obtain ⟨es, hes⟩ := pulseSamples_begin hps rest
  have hi' : s.inputs = List.replicate n (lineSample .high) ++ lineSample .low :: es := by
    rw [hi, ← hes, traceOf, List.append_assoc, List.append_assoc]
    rfl
  have hack := run_phase ht (by omega) hi' fun u hu hl he => .awaiting (hu.trans hs) (by simp; omega) hl
  have hmove : Move params (sampleAt (BitVec.ofNat 16 (n + 1)) .low (s.quiet es)) _ :=
    .acknowledge hs (by rw [elapsed_sampleAt, toNat_time (by omega)]; exact hle) rfl
  rw [blockStep_of_move hmove] at hack
  have hlen' : s.cnt.toNat + (p :: ps).length ≤ 41 := by rwa [hcnt, Nat.zero_add]
  rw [run_add hack]
  exact run_pulses rfl rfl hlen' hps hes.symm

/-- Settles O30: after the trace the block is in `VALIDATE` with the bits of the pulses, and the next sample ends the
cycle. -/
theorem traceYieldsItsReading : Obligations.TraceYieldsItsReading := by
  intro s a ps x rest hinv hs ht ha hle hlen hps hrst hi
  obtain ⟨p, ps, rfl⟩ := List.exists_cons_of_length_eq_add_one hlen
  have hcnt : s.cnt.toNat = 0 := congrArg BitVec.toNat (hinv.cnt_start (.inr hs))
  have hlast : s.cnt.toNat + ((p :: ps).map Pulse.bit).length = 41 := by
    rw [hcnt, Nat.zero_add, List.length_map, hlen]
  obtain ⟨hoe, hout⟩ := (inv_iff.mp hinv).1.released (by simp [hs])
  obtain ⟨t, hrun⟩ := run_trace hs hcnt ht ha hle hlen.le hps hi
  have hu := afterBits_last (s := s.quiet (.sample x :: rest)) hlast t s.draws
  obtain ⟨st, hstep, hresult⟩ := blockStep_validate_result
    (s := latch x ((s.quiet rest).afterBits ((p :: ps).map Pulse.bit) t s.draws))
    (congrArg State.state hu)
  have hlastStep := (run_step hrun).trans ((step_sample rfl hrst).trans hstep)
  refine ⟨_, hlastStep, rfl, rfl, congrArg State.cnt hu, hoe, hout, rfl, fun k q hq => ?_, ?_⟩
  · have hbit : ((p :: ps).map Pulse.bit)[k]? = some q.bit := by rw [List.getElem?_map, hq]; rfl
    exact pulseBit_placeAll s.frame hlast.le hbit (by rw [State.quiet, hcnt, Nat.zero_add])
  · rw [hresult]
    simp only [ne_eq, checksum_eq_byte5_iff]
    rfl

end Sys2Proof.Machine

/-! # `start` in a cycle and after it

Of the six step rules the one of `IDLE` alone reads `start`: in a cycle `start` changes nothing but its own port
(40_host_commands.md R68), and after any outcome it begins the next cycle (R70, 42_handshake.md R82, 60_exceptions.md
R117). -/

namespace Sys2Proof.Machine

/-- Outside `IDLE` every edge of the state graph is taken at the other value of `start` too (R68, R81). -/
theorem Move.with_start {w : Nat} {p : Params} {s t : State w} (m : Move p s t) (hs : s.state ≠ stIdle) (b : Bool) :
    Move p { s with start := b } { t with start := b } := by
  cases m with
  | noCommand h | accept h => exact absurd h hs
  | hold hs he => exact .hold hs he
  | release hs he => exact .release hs he
  | noResponse hs he => exact .noResponse hs he
  | acknowledge hs he hl => exact .acknowledge hs he hl
  | awaiting hs he hl => exact .awaiting hs he hl
  | stuckLow hs he => exact .stuckLow hs he
  | rise hs he hl => exact .rise hs he hl
  | stillLow hs he hl => exact .stillLow hs he hl
  | stuckHigh hs he => exact .stuckHigh hs he
  | fall hs he hl => exact .fall hs he hl
  | stillHigh hs he hl => exact .stillHigh hs he hl
  | badMarker hs hm => exact .badMarker hs hm
  | badChecksum hs hm hc => exact .badChecksum hs hm hc
  | success hs hm hc => exact .success hs hm hc

variable {s t : State} {x : Sample} {es : List Event}

/-- A cycle is under way exactly outside `IDLE` (R27). -/
theorem busy_eq_true_iff (s : State) : busy s = true ↔ s.state ≠ stIdle := by simp [busy]

/-- Outside `IDLE` a step on a sample is the same step at the other value of `start`, under `rst` too (R68). -/
theorem step_with_start (hs : s.state ≠ stIdle) (hi : s.inputs = .sample x :: es) (hstep : step s = .next t)
    (b : Bool) :
    step { s with inputs := .sample { x with start := b } :: es } = .next { t with start := b } := by
  have m := step_move hstep
  rw [nextEvent_cons hi] at m
  cases m with
  | reset _ hrst => exact step_rst (x := { x with start := b }) rfl hrst
  | moved _ hrst m =>
    rw [step_sample (x := { x with start := b }) rfl hrst]
    exact blockStep_of_move (m.with_start hs b)

/-- A stop is the same stop at the other value of `start`: it comes from a reserved code without `rst` (R54, R126). -/
theorem step_refused_with_start (hi : s.inputs = .sample x :: es) {r : Refusal} (hstep : step s = .refused r)
    (b : Bool) :
    step { s with inputs := .sample { x with start := b } :: es } = .refused r := by
  obtain ⟨hreserved, rfl⟩ := stepOf_refused hstep
  have hrst : x.rst = false := by
    cases hrst : x.rst with
    | false => rfl
    | true => simp [step_rst hi hrst] at hstep
  rw [step_sample (x := { x with start := b }) rfl hrst]
  exact blockStep_reserved hreserved

/-- Settles O40: outside `IDLE` no edge of the state graph reads `start`, and neither does a reset or a stop. -/
theorem startIsIgnoredWhileBusy : Obligations.StartIsIgnoredWhileBusy := fun s _ _ b hbusy hi =>
  ⟨fun _ hstep => step_with_start ((busy_eq_true_iff s).mp hbusy) hi hstep b,
    fun _ hstep => step_refused_with_start hi hstep b⟩

/-- In `IDLE` a step on a sample with `start` and without `rst` accepts the `READ` (R82). -/
theorem step_accept (hs : s.state = stIdle) (hi : s.inputs = .sample x :: es) (hrst : x.rst = false)
    (hstart : x.start = true) : step s = .next (acceptRead (latch x { s with inputs := es })) :=
  (step_sample hi hrst).trans (blockStep_of_move (.accept hs hstart))

/-- Settles O44: a block with a result is in `IDLE`, where the `READ` is accepted. -/
theorem everyOutcomeLetsTheNextReadIn : Obligations.EveryOutcomeLetsTheNextReadIn := fun _ _ _ h hd hi hrst hstart =>
  ⟨_, step_accept (h.done_idle hd) hi hrst hstart, rfl, rfl, rfl, rfl, rfl, rfl, rfl, rfl, rfl⟩

end Sys2Proof.Machine

/-! # The length of a cycle

Under `SYNC1` a block enters each state of a cycle within a window of steps, counted from the accepting step, and leaves
it within the limit of that state; so the cycle ends within the bounds of the last windows (40_host_commands.md R67,
43_bit_decode.md R95, 70_reset_and_hazards.md R140). -/

namespace Sys2Proof.Machine

variable {s t u : State} {x : Sample} {k first last limit : Nat}

/-- `k` steps after the accepting one the block has been in its state for `Elapsed()` ticks, at most `limit`, and it
entered the state in one of the steps `first` to `last`. -/
def State.EnteredWithin (first last limit k : Nat) (s : State) : Prop :=
  (elapsed s).toNat ≤ limit ∧ first + (elapsed s).toNat ≤ k ∧ k ≤ last + (elapsed s).toNat

/-- One sample more in the same state. -/
theorem State.EnteredWithin.stay (h : s.EnteredWithin first last limit k)
    (htick : (elapsed u).toNat = (elapsed s).toNat + 1) (hu : (elapsed u).toNat ≤ limit) :
    u.EnteredWithin first last limit (k + 1) := by
  obtain ⟨-, hfirst, hlast⟩ := h
  exact ⟨hu, by omega, by omega⟩

/-- A state that is entered in this step, `T0` stamped. -/
theorem enteredWithin_of_stamped (ht : t.t0 = t.now) (hfirst : first ≤ k) (hlast : k ≤ last) :
    t.EnteredWithin first last limit k := by
  have he : (elapsed t).toNat = 0 := by rw [elapsed, ht, BitVec.sub_self, BitVec.toNat_zero]
  exact ⟨by omega, by omega, by omega⟩

/-- A state left within its limit for the next one, whose window begins a step later and ends a whole wait later. -/
theorem State.EnteredWithin.leave (h : s.EnteredWithin first last limit k)
    (htick : (elapsed u).toNat = (elapsed s).toNat + 1) (hu : (elapsed u).toNat ≤ limit) (ht : t.t0 = t.now)
    {first' last' limit' : Nat} (hfirst : first' ≤ first + 1) (hlast : last + limit ≤ last') :
    t.EnteredWithin first' last' limit' (k + 1) := by
  obtain ⟨-, hk, hk'⟩ := h
  exact enteredWithin_of_stamped ht (by omega) (by omega)

/-- A state is held past its limit only when it has been held for the whole of it. -/
theorem State.EnteredWithin.timeout (h : s.EnteredWithin first last limit k)
    (htick : (elapsed u).toNat = (elapsed s).toNat + 1) (hu : limit < (elapsed u).toNat) :
    first + limit ≤ k ∧ k ≤ last + limit := by
  obtain ⟨hle, hfirst, hlast⟩ := h
  omega

/-- `k` steps after the accepting one the block is in a cycle and on time. The release is step 18000, the acknowledgment
comes 1 to 100 steps after it, and each of the `CNT` pulses so far has taken 2 to 300 steps: at least one in each phase,
at most 100 in the low and 200 in the high one (R140). -/
def State.OnTime (k : Nat) (s : State) : Prop :=
  match s.state.toNat with
  | 1 => s.EnteredWithin 0 0 17999 k
  | 2 => s.EnteredWithin 18000 18000 100 k
  | 3 => s.EnteredWithin (18001 + 2 * s.cnt.toNat) (18100 + 300 * s.cnt.toNat) 100 k
  | 4 => s.EnteredWithin (18002 + 2 * s.cnt.toNat) (18200 + 300 * s.cnt.toNat) 200 k
  | 5 => s.EnteredWithin 18083 30400 0 k
  | _ => False

theorem not_onTime_idle (hs : s.state = stIdle) : ¬ s.OnTime k := by simp [State.OnTime, hs]

theorem onTime_requestStart_iff (hs : s.state = stRequestStart) : s.OnTime k ↔ s.EnteredWithin 0 0 17999 k := by
  simp [State.OnTime, hs]

theorem onTime_awaitResponse_iff (hs : s.state = stAwaitResponse) :
    s.OnTime k ↔ s.EnteredWithin 18000 18000 100 k := by
  simp [State.OnTime, hs]

theorem onTime_bitLow_iff (hs : s.state = stBitLow) :
    s.OnTime k ↔ s.EnteredWithin (18001 + 2 * s.cnt.toNat) (18100 + 300 * s.cnt.toNat) 100 k := by
  simp [State.OnTime, hs]

theorem onTime_bitHigh_iff (hs : s.state = stBitHigh) :
    s.OnTime k ↔ s.EnteredWithin (18002 + 2 * s.cnt.toNat) (18200 + 300 * s.cnt.toNat) 200 k := by
  simp [State.OnTime, hs]

theorem onTime_validate_iff (hs : s.state = stValidate) : s.OnTime k ↔ s.EnteredWithin 18083 30400 0 k := by
  simp [State.OnTime, hs]

/-- A block that is on time has waited no longer than the wake pulse, and the last step of its cycle is to come. -/
theorem State.OnTime.bounds (h : s.OnTime k) (hinv : s.InvOf params) : (elapsed s).toNat ≤ 17999 ∧ k ≤ 30400 := by
  have hloop : s.state = stBitLow ∨ s.state = stBitHigh → s.cnt.toNat < 41 := hinv.cnt_loop
  have hlegal := hinv.state_legal
  rcases state_cases s.state with hs | hs | hs | hs | hs | hs | hs | hs
  · exact absurd h (not_onTime_idle hs)
  · obtain ⟨hle, -, hlast⟩ := (onTime_requestStart_iff hs).mp h
    omega
  · obtain ⟨hle, -, hlast⟩ := (onTime_awaitResponse_iff hs).mp h
    omega
  · obtain ⟨hle, -, hlast⟩ := (onTime_bitLow_iff hs).mp h
    have := hloop (.inl hs)
    omega
  · obtain ⟨hle, -, hlast⟩ := (onTime_bitHigh_iff hs).mp h
    have := hloop (.inr hs)
    omega
  · obtain ⟨hle, -, hlast⟩ := (onTime_validate_iff hs).mp h
    omega
  · simp [hs] at hlegal
  · simp [hs] at hlegal

/-- The cycle has ended in its step `k`, within the bounds of R140. -/
structure State.EndedOnTime (k : Nat) (s : State) : Prop where
  state_idle : s.state = stIdle
  done : s.done = true
  earliest_le : 18084 ≤ k
  le_latest : k ≤ 30401

/-- One tick more since `T0`, where the elapsed time does not wrap (R36, R76). -/
theorem elapsed_latch_tick (hx : x.ticks = 1) (he : (elapsed s).toNat < 65535) :
    (elapsed (latch x s)).toNat = (elapsed s).toNat + 1 := by
  have hsum : elapsed (latch x s) = elapsed s + BitVec.ofNat counterWidth 1 := by
    rw [elapsed, elapsed, latch_now, latch_t0, hx, advance, sub_add_eq_add_sub]
  have hone : (BitVec.ofNat counterWidth 1).toNat = 1 := rfl
  rw [hsum, BitVec.toNat_add, hone]
  exact Nat.mod_eq_of_lt (Nat.succ_lt_succ he)

/-- On a sample one tick later every edge of the state graph keeps a cycle on time or ends it on time (R81, R140). -/
theorem Move.onTime_or_ended (m : Move params (latch x s) t) (hx : x.ticks = 1) (h : s.OnTime k)
    (hinv : s.InvOf params) : t.OnTime (k + 1) ∨ t.EndedOnTime (k + 1) := by
  have htick := elapsed_latch_tick hx ((h.bounds hinv).1.trans_lt (by omega))
  cases m with
  | noCommand hs | accept hs => exact absurd h (not_onTime_idle (s := s) hs)
  | hold hs he =>
    have hwait := (onTime_requestStart_iff (s := s) hs).mp h
    exact .inl ((onTime_requestStart_iff hs).mpr (hwait.stay htick (Nat.le_of_lt_succ he)))
  | release hs he =>
    obtain ⟨hfirst, hlast⟩ := ((onTime_requestStart_iff (s := s) hs).mp h).timeout htick he
    exact .inl ((onTime_awaitResponse_iff rfl).mpr (enteredWithin_of_stamped rfl (by omega) (by omega)))
  | awaiting hs he =>
    have hwait := (onTime_awaitResponse_iff (s := s) hs).mp h
    exact .inl ((onTime_awaitResponse_iff hs).mpr (hwait.stay htick he))
  | acknowledge hs he =>
    have hwait := (onTime_awaitResponse_iff (s := s) hs).mp h
    have hcnt : (goto stBitLow (stamp (latch x s))).cnt.toNat = 0 := congrArg BitVec.toNat (hinv.cnt_start (.inr hs))
    exact .inl ((onTime_bitLow_iff rfl).mpr (hwait.leave htick he rfl (by omega) (by omega)))
  | noResponse hs he =>
    obtain ⟨hfirst, hlast⟩ := ((onTime_awaitResponse_iff (s := s) hs).mp h).timeout htick he
    exact .inr ⟨rfl, rfl, by omega, by omega⟩
  | stillLow hs he =>
    have hwait := (onTime_bitLow_iff (s := s) hs).mp h
    exact .inl ((onTime_bitLow_iff hs).mpr (hwait.stay htick he))
  | rise hs he =>
    have hwait := (onTime_bitLow_iff (s := s) hs).mp h
    have hcnt : (goto stBitHigh (stamp (latch x s))).cnt.toNat = s.cnt.toNat := rfl
    exact .inl ((onTime_bitHigh_iff rfl).mpr (hwait.leave htick he rfl (by omega) (by omega)))
  | stuckLow hs he =>
    obtain ⟨hfirst, hlast⟩ := ((onTime_bitLow_iff (s := s) hs).mp h).timeout htick he
    have hcnt : s.cnt.toNat < 41 := hinv.cnt_loop (.inl hs)
    exact .inr ⟨rfl, rfl, by omega, by omega⟩
  | stillHigh hs he =>
    have hwait := (onTime_bitHigh_iff (s := s) hs).mp h
    exact .inl ((onTime_bitHigh_iff hs).mpr (hwait.stay htick he))
  | fall hs he =>
    have hwait := (onTime_bitHigh_iff (s := s) hs).mp h
    have hcnt : s.cnt.toNat < params.nPulses := hinv.cnt_loop (.inr hs)
    have hnext := afterPulse_eq params_wf hcnt
    have hsucc : (endPulse params (latch x s)).cnt.toNat = s.cnt.toNat + 1 := toNat_cnt_succ params_wf hcnt
    by_cases hlast : s.cnt.toNat + 1 = 41
    · exact .inl ((onTime_validate_iff (hnext.trans (if_pos hlast))).mpr
        (hwait.leave htick he rfl (by omega) (by omega)))
    · exact .inl ((onTime_bitLow_iff (hnext.trans (if_neg hlast))).mpr
        (hwait.leave htick he rfl (by omega) (by omega)))
  | stuckHigh hs he =>
    obtain ⟨hfirst, hlast⟩ := ((onTime_bitHigh_iff (s := s) hs).mp h).timeout htick he
    have hcnt : s.cnt.toNat < 41 := hinv.cnt_loop (.inr hs)
    exact .inr ⟨rfl, rfl, by omega, by omega⟩
  | badMarker hs | badChecksum hs | success hs =>
    obtain ⟨hle, hfirst, hlast⟩ := (onTime_validate_iff (s := s) hs).mp h
    exact .inr ⟨rfl, rfl, by omega, by omega⟩

/-- No step of the block takes an event from the queue. -/
theorem Move.inputs_eq (m : Move params s t) : t.inputs = s.inputs := by cases m <;> rfl

/-- A step of a cycle that is on time, on a sample one tick later: it keeps the cycle on time or ends it on time. -/
theorem step_onTime {e : Event} {es : List Event} (hi : s.inputs = e :: es) (he : e.isTick = true) (h : s.OnTime k)
    (hinv : s.InvOf params) :
    ∃ t, step s = .next t ∧ t.inputs = es ∧ t.InvOf params ∧ (t.OnTime (k + 1) ∨ t.EndedOnTime (k + 1)) := by
  cases e with
  | ask | askFrame => simp [Event.isTick] at he
  | sample x =>
    simp only [Event.isTick, Bool.and_eq_true, Bool.not_eq_true', beq_iff_eq] at he
    obtain ⟨hrst, hticks⟩ := he
    have hinv' : { s with inputs := es }.InvOf params := hinv.of_registers ..
    obtain ⟨t, ht⟩ := blockStep_total params (hinv'.latch x).state_legal
    have m := blockStep_move ht
    exact ⟨t, (step_sample hi hrst).trans ht, m.inputs_eq, move_keeps_invOf params_wf (hinv'.latch x) m,
      m.onTime_or_ended hticks h hinv'⟩

/-- A block that is on time is in a cycle, in which nothing has finished (R29 item 5). -/
theorem State.OnTime.running (h : s.OnTime k) (hinv : s.InvOf params) : s.state ≠ stIdle ∧ s.done = false := by
  have hs : s.state ≠ stIdle := fun hs => not_onTime_idle hs h
  exact ⟨hs, (hinv.unfinished hs).1⟩

/-- A run whose first step is known. -/
theorem run_succ_of_step (hstep : step s = .next u) (n : Nat) : run (n + 1) s = run n u := by
  rw [run_succ, hstep, andThen_of_next]

/-- A cycle that is on time ends on time, if there are samples enough for its longest course. -/
theorem run_onTime {es : List Event} (hi : s.inputs = es) (hes : ∀ e ∈ es, e.isTick = true)
    (hlen : 30401 ≤ k + es.length) (h : s.OnTime k) (hinv : s.InvOf params) :
    ∃ n, (∃ t, run n s = .next t ∧ t.EndedOnTime (k + n)) ∧
      ∀ m, m < n → ∃ t, run m s = .next t ∧ t.state ≠ stIdle ∧ t.done = false := by
  induction es generalizing s k with
  | nil =>
    have hlast := (h.bounds hinv).2
    rw [List.length_nil] at hlen
    omega
  | cons e es ih =>
    obtain ⟨he, hes⟩ := List.forall_mem_cons.mp hes
    obtain ⟨u, hstep, hinputs, hinv', htime | hend⟩ := step_onTime hi he h hinv
    · have hlen' : 30401 ≤ k + 1 + es.length := by rwa [Nat.add_right_comm]
      obtain ⟨n, ⟨t, hrun, hend⟩, hbusy⟩ := ih hinputs hes hlen' htime hinv'
      refine ⟨n + 1, ⟨t, (run_succ_of_step hstep n).trans hrun, by rwa [Nat.add_right_comm] at hend⟩, fun m hm => ?_⟩
      cases m with
      | zero => exact ⟨s, rfl, h.running hinv⟩
      | succ m =>
        rw [run_succ_of_step hstep]
        exact hbusy m (Nat.lt_of_succ_lt_succ hm)
    · refine ⟨1, ⟨u, (run_one s).trans hstep, hend⟩, fun m hm => ?_⟩
      obtain rfl := Nat.lt_one_iff.mp hm
      exact ⟨s, rfl, h.running hinv⟩

/-- The accepting step begins the wake pulse on time (R82). -/
theorem onTime_acceptRead (s : State) : (acceptRead s).OnTime 0 :=
  (onTime_requestStart_iff rfl).mpr (enteredWithin_of_stamped rfl le_rfl le_rfl)

/-- Settles O33: from the accepting step on the cycle is on time until it ends on time. -/
theorem everyCycleFinishesWithin30401Steps : Obligations.EveryCycleFinishesWithin30401Steps := by
  intro s x es hs hi hrst hstart hes hlen
  have hrun_succ := run_succ_of_step (step_accept hs hi hrst hstart)
  obtain ⟨n, ⟨t, hrun, hend⟩, hbusy⟩ :=
    run_onTime rfl hes (by rwa [Nat.zero_add]) (onTime_acceptRead (latch x { s with inputs := es }))
      (invOf_acceptRead params _)
  rw [Nat.zero_add] at hend
  refine ⟨n, hend.earliest_le, hend.le_latest, ⟨t, (hrun_succ n).trans hrun, hend.state_idle, hend.done⟩, ?_⟩
  intro m hpos hm
  obtain ⟨m, rfl⟩ := Nat.exists_eq_add_of_le' hpos
  rw [hrun_succ]
  exact hbusy m hm

end Sys2Proof.Machine

/-! # Port operations and elapsed time

Each port operation as an instruction is the operation of the step rules, or the answer with the input of this step
(41_port_ops.md R74, R75, R77, R78); the elapsed time is the number of ticks since `T0`, as far as the width of the
counter holds it (R76). -/

namespace Sys2Proof.Machine

variable {w : Nat}

/-- `setDirection(d)` as an instruction is the `SetDirection(d)` of the step rules (R77). -/
theorem exec_setDirection (d : Direction) (s : State) : exec (.setDirection d) s = .next (setDirection d s) := rfl

/-- `setLevel(v)` as an instruction is the `SetLevel(v)` of the step rules (R78). -/
theorem exec_setLevel (v : Level) (s : State) : exec (.setLevel v) s = .next (setLevel v s) := rfl

/-- `readLevel()` answers with the `SampleLevel()` of the step rules (R74). -/
theorem exec_readLevel (s : State) : exec .readLevel s = .next (answerWith (.level (sampleLevel s)) s) := rfl

/-- `now()` answers with the counter (R75). -/
theorem exec_now (s : State) : exec .now s = .next (answerWith (.time s.now) s) := rfl

/-- Settles O14: the two operations of the step rules write one pin register each. -/
theorem pinWritesSetTheirRegister : Obligations.PinWritesSetTheirRegister := fun s =>
  ⟨fun d => exec_setDirection d s, fun v => exec_setLevel v s⟩

/-- Settles O15: an answer writes the field of the answer alone. -/
theorem portReadsReturnTheInput : Obligations.PortReadsReturnTheInput := fun s =>
  ⟨exec_readLevel s, exec_now s⟩

/-- After `d` ticks from `T0` the elapsed time is `d`, as far as the width holds it, however often the counter has
wrapped (R76). -/
theorem toNat_elapsed_of_ticks {s : State w} {d : Nat} (h : s.now = s.t0 + BitVec.ofNat w d) :
    (elapsed s).toNat = d % 2 ^ w := by
  rw [elapsed_of_now s _ h, BitVec.toNat_ofNat]

/-- Settles O16: the subtraction of the counter values is the one modulo `2^16`, and it cancels `T0`. -/
theorem elapsedCountsTicksModuloTheWidth : Obligations.ElapsedCountsTicksModuloTheWidth := fun s =>
  ⟨elapsed_toNat s, fun _ => toNat_elapsed_of_ticks⟩

end Sys2Proof.Machine

/-! # The step rules of the handshake

Each row of a handshake rule does what the rule does, whatever `STATE` holds (log entry 24); in `IDLE` the block runs
its rule for every parameter record (42_handshake.md R82, R83, R85). -/

namespace Sys2Proof.Machine

section
variable {w : Nat} {p : Params} {s : State w}

/-- Accepting a `READ` writes the eight registers of R82 and nothing else. -/
theorem acceptRead_eq (s : State w) :
    acceptRead s =
      { s with
        frame := Frame.zero, cnt := 0, status := .ok, done := false, out := .low, oe := .output, t0 := s.now
        state := stRequestStart } := rfl

/-- The step of `IDLE` (R82). -/
theorem blockStep_idle (hs : s.state = stIdle) : blockStep p s = .next (if s.start then acceptRead s else s) := by
  split
  case isTrue hstart => exact blockStep_of_move (.accept hs hstart)
  case isFalse hstart => exact blockStep_of_move (.noCommand hs (Bool.eq_false_iff.mpr hstart))

/-- From the end of the wake pulse on the line is released (R83). -/
theorem requestStartRule_release (he : p.tWake ≤ (elapsed s).toNat) :
    requestStartRule p s = { s with oe := .input, out := .high, t0 := s.now, state := stAwaitResponse } := if_pos he

/-- Before the end of the wake pulse nothing is written (R83). -/
theorem requestStartRule_hold (he : (elapsed s).toNat < p.tWake) : requestStartRule p s = s := if_neg he.not_ge

/-- Past the limit the acknowledgment has failed to come, whatever the level (R85, R115). -/
theorem awaitResponseRule_timeout (he : p.tResp < (elapsed s).toNat) :
    awaitResponseRule p s = { s with status := .error .noResponse, done := true, state := stIdle } := if_pos he

/-- Within the limit a low sample is the acknowledgment (R85). -/
theorem awaitResponseRule_acknowledge (he : (elapsed s).toNat ≤ p.tResp) (hl : s.lvl = .low) :
    awaitResponseRule p s = { s with t0 := s.now, state := stBitLow } := (if_neg he.not_gt).trans (if_pos hl)

/-- Within the limit a high sample is waited out (R85). -/
theorem awaitResponseRule_wait (he : (elapsed s).toNat ≤ p.tResp) (hl : s.lvl = .high) :
    awaitResponseRule p s = s := (if_neg he.not_gt).trans (if_neg (by simp [hl]))

end

/-- Settles O51: in `IDLE` the edges of the state graph are the accepted `READ` and the wait for it. -/
theorem blockInIdleAcceptsStart : Obligations.BlockInIdleAcceptsStart := fun _ _ => blockStep_idle

/-- The row of `IDLE` is its rule (R82). -/
theorem exec_stepIdle (s : State) : exec .stepIdle s = .next (idleRule s) := rfl

/-- The row of `REQUEST_START` is its rule (R83). -/
theorem exec_stepRequestStart (s : State) : exec .stepRequestStart s = .next (requestStartRule params s) := rfl

/-- The row of `AWAIT_RESPONSE` is its rule (R85). -/
theorem exec_stepAwaitResponse (s : State) : exec .stepAwaitResponse s = .next (awaitResponseRule params s) := rfl

/-- Settles O10: the row is the rule of `IDLE`, and accepting the `READ` writes the registers of R82. -/
theorem idleStepAcceptsStart : Obligations.IdleStepAcceptsStart := by
  intro s
  rw [exec_stepIdle, idleRule, acceptRead_eq]
  rfl

/-- The elapsed time is the number of ticks since `T0` (R76). -/
theorem toNat_elapsed_eq_ticksSince (s : State) : (elapsed s).toNat = s.ticksSince := elapsed_toNat s

/-- Settles O17: the row is the rule of `REQUEST_START`, with the wake pulse of 18000 ticks. -/
theorem requestStartHoldsThenReleases : Obligations.RequestStartHoldsThenReleases := by
  intro s
  rw [exec_stepRequestStart, ← toNat_elapsed_eq_ticksSince]
  exact ⟨fun he => congrArg _ (requestStartRule_release he), fun he => congrArg _ (requestStartRule_hold he)⟩

/-- Settles O18: the row is the rule of `AWAIT_RESPONSE`, which tests its limit of 100 ticks before the level. -/
theorem awaitResponseTakesTheAcknowledgment : Obligations.AwaitResponseTakesTheAcknowledgment := by
  intro s
  rw [exec_stepAwaitResponse, ← toNat_elapsed_eq_ticksSince]
  exact ⟨fun he => congrArg _ (awaitResponseRule_timeout he),
    fun he hl => congrArg _ (awaitResponseRule_acknowledge he hl),
    fun he hl => congrArg _ (awaitResponseRule_wait he hl)⟩

end Sys2Proof.Machine

/-! # The wake pulse

A cycle that is on time is in `REQUEST_START` for its first 18000 steps and in `AWAIT_RESPONSE` in the next; the
invariants fix the pin in both (42_handshake.md R84, 70_reset_and_hazards.md R140). -/

namespace Sys2Proof.Machine

variable {s : State} {k n : Nat}

/-- A cycle on time wakes the sensor, has just released the line or listens for the acknowledgment, or is further on. -/
theorem State.OnTime.waking_or_released (h : s.OnTime k) :
    s.state = stRequestStart ∧ k < 18000 ∨ s.state = stAwaitResponse ∧ 18000 + (elapsed s).toNat ≤ k ∨ 18000 < k := by
  rcases state_cases s.state with hs | hs | hs | hs | hs | hs | hs | hs
  · exact absurd h (not_onTime_idle hs)
  · obtain ⟨hle, -, hlast⟩ := (onTime_requestStart_iff hs).mp h
    exact .inl ⟨hs, by omega⟩
  · obtain ⟨-, hfirst, -⟩ := (onTime_awaitResponse_iff hs).mp h
    exact .inr (.inl ⟨hs, hfirst⟩)
  · obtain ⟨-, hfirst, -⟩ := (onTime_bitLow_iff hs).mp h
    omega
  · obtain ⟨-, hfirst, -⟩ := (onTime_bitHigh_iff hs).mp h
    omega
  · obtain ⟨-, hfirst, -⟩ := (onTime_validate_iff hs).mp h
    omega
  · simp [State.OnTime, hs] at h
  · simp [State.OnTime, hs] at h

/-- Before its 18000th step a cycle on time is in the wake pulse (R84). -/
theorem State.OnTime.state_waking (h : s.OnTime k) (hk : k < 18000) : s.state = stRequestStart := by
  obtain ⟨hs, -⟩ | ⟨-, hfirst⟩ | hlater := h.waking_or_released
  · exact hs
  · omega
  · omega

/-- In its 18000th step a cycle on time releases the line and stamps `T0` (R83, R84). -/
theorem State.OnTime.released_at_18000 (h : s.OnTime 18000) : s.state = stAwaitResponse ∧ s.t0 = s.now := by
  obtain ⟨-, hk⟩ | ⟨hs, hfirst⟩ | hlater := h.waking_or_released
  · omega
  · have hzero : (elapsed s).toNat = (0 : Time).toNat := Nat.le_zero.mp (Nat.le_of_add_le_add_left hfirst)
    exact ⟨hs, (sub_eq_zero.mp (BitVec.eq_of_toNat_eq hzero)).symm⟩
  · omega

/-- A cycle on time stays on time for as long as it cannot have ended, sample by sample (R140). -/
theorem run_stays_onTime {es : List Event} (hi : s.inputs = es) (hes : ∀ e ∈ es, e.isTick = true)
    (h : s.OnTime k) (hinv : s.InvOf params) (hn : n ≤ es.length) (hearly : k + n < 18084) :
    ∃ t, run n s = .next t ∧ t.OnTime (k + n) ∧ t.InvOf params := by
  induction n generalizing s k es with
  | zero => exact ⟨s, rfl, h, hinv⟩
  | succ n ih =>
    cases es with
    | nil => exact absurd hn (Nat.not_succ_le_zero n)
    | cons e es =>
      obtain ⟨he, hes⟩ := List.forall_mem_cons.mp hes
      obtain ⟨u, hstep, hinputs, hinv', htime | hend⟩ := step_onTime hi he h hinv
      · obtain ⟨t, hrun, ht⟩ := ih hinputs hes htime hinv' (Nat.le_of_succ_le_succ hn) (by omega)
        exact ⟨t, (run_succ_of_step hstep n).trans hrun, by rwa [Nat.add_right_comm] at ht⟩
      · have := hend.earliest_le
        omega

/-- Settles O31: the accepted cycle is on time, which tells the state, and the invariants tell the pin. -/
theorem wakePulseLasts18000Steps : Obligations.WakePulseLasts18000Steps := by
  intro s x es hs hi hrst hstart hes hlen
  have hrun : ∀ n, n ≤ 18000 → ∃ t, run (n + 1) s = .next t ∧ t.OnTime n ∧ t.InvOf params := by
    intro n hn
    rw [run_succ_of_step (step_accept hs hi hrst hstart)]
    have hearly := run_stays_onTime rfl hes (onTime_acceptRead (latch x { s with inputs := es }))
      (invOf_acceptRead params _) (hn.trans hlen) (by omega)
    rwa [Nat.zero_add] at hearly
  constructor
  · intro n hpos hn
    obtain ⟨n, rfl⟩ := Nat.exists_eq_add_of_le' hpos
    obtain ⟨t, ht, htime, hinv⟩ := hrun n (Nat.le_of_succ_le hn)
    have hstate := htime.state_waking hn
    have hoe := hinv.drives_iff.mpr hstate
    exact ⟨t, ht, hstate, hoe, hinv.drives_low hoe⟩
  · obtain ⟨t, ht, htime, hinv⟩ := hrun 18000 le_rfl
    obtain ⟨hstate, ht0⟩ := htime.released_at_18000
    obtain ⟨hoe, hout⟩ := hinv.released (by simp [hstate])
    exact ⟨t, ht, hstate, hoe, hout, ht0⟩

end Sys2Proof.Machine

/-! # The state graph

The moves of the block are the edges of the state graph; the elapsed time is that of the latched sample, and the loop
ends with the 41st pulse (42_handshake.md R81, 43_bit_decode.md R95). -/

namespace Sys2Proof.Machine

section
variable {w : Nat} {p : Params} {s t : State w}

/-- No step of the block writes the counter (R36). -/
theorem Move.now_eq (m : Move p s t) : t.now = s.now := by cases m <;> rfl

/-- The loop ends with the last pulse, for a `CNT` beyond the loop too: where it wraps, it wraps to 0, and there is a
pulse to wait for (R21, R95). -/
theorem afterPulse_eq_of_wf (hwf : p.wf = true) (cnt : BitVec 6) :
    afterPulse p cnt = if cnt.toNat + 1 = p.nPulses then stValidate else stBitLow := by
  by_cases hcnt : cnt.toNat < p.nPulses
  · exact afterPulse_eq hwf hcnt
  · have hpos := nPulses_pos hwf
    have hlt := (wf_pulses hwf).2.2
    have hne : cnt + 1 ≠ BitVec.ofNat 6 p.nPulses := by
      intro heq
      have hnat := congrArg BitVec.toNat heq
      rw [BitVec.toNat_add, BitVec.toNat_ofNat, Nat.mod_eq_of_lt hlt] at hnat
      have hone : (1 : BitVec 6).toNat = 1 := rfl
      omega
    rw [afterPulse, if_neg hne, if_neg (by omega)]

end

/-- Settles O38: each move is one edge, and a move that stays is one of the five waits. -/
theorem stepsFollowTheStateGraph : Obligations.StepsFollowTheStateGraph := by
  intro s t x es hi hrst hstep e
  have m := blockStep_move ((step_sample hi hrst).symm.trans hstep)
  have he : e = (elapsed (latch x { s with inputs := es })).toNat := by
    rw [elapsed_toNat, ← m.now_eq]
    rfl
  clear_value e
  subst he
  cases m with
  | noCommand hs hstart => exact .inl ⟨rfl, rfl, rfl, .inl ⟨hs, hstart⟩⟩
  | hold hs he => exact .inl ⟨rfl, rfl, rfl, .inr (.inl ⟨hs, he⟩)⟩
  | awaiting hs he hl => exact .inl ⟨rfl, rfl, rfl, .inr (.inr (.inl ⟨hs, hl, he⟩))⟩
  | stillLow hs he hl => exact .inl ⟨rfl, rfl, rfl, .inr (.inr (.inr (.inl ⟨hs, hl, he⟩)))⟩
  | stillHigh hs he hl => exact .inl ⟨rfl, rfl, rfl, .inr (.inr (.inr (.inr ⟨hs, hl, he⟩)))⟩
  | accept hs hstart =>
    right
    exact .inl ⟨hs, rfl, hstart, rfl, rfl⟩
  | release hs he =>
    iterate 2 right
    exact .inl ⟨hs, rfl, he, rfl, rfl⟩
  | acknowledge hs he hl =>
    iterate 3 right
    exact .inl ⟨hs, rfl, hl, he, rfl, rfl⟩
  | rise hs he hl =>
    iterate 4 right
    exact .inl ⟨hs, rfl, hl, he, rfl, rfl⟩
  | fall hs he hl =>
    iterate 5 right
    have hnext := afterPulse_eq_of_wf params_wf s.cnt
    by_cases hlast : s.cnt.toNat + 1 = 41
    · exact .inr (.inl ⟨hs, hnext.trans (if_pos hlast), hl, he, hlast, rfl, rfl⟩)
    · exact .inl ⟨hs, hnext.trans (if_neg hlast), hl, he, hlast, rfl, rfl⟩
  | success hs =>
    iterate 7 right
    exact .inl ⟨hs, rfl, rfl, .inl rfl⟩
  | badMarker hs =>
    iterate 7 right
    exact .inl ⟨hs, rfl, rfl, .inr (.inl rfl)⟩
  | badChecksum hs =>
    iterate 7 right
    exact .inl ⟨hs, rfl, rfl, .inr (.inr rfl)⟩
  | noResponse hs he =>
    iterate 8 right
    exact .inl ⟨hs, rfl, he, rfl, rfl⟩
  | stuckLow hs he =>
    iterate 9 right
    exact .inl ⟨hs, rfl, he, rfl, rfl⟩
  | stuckHigh hs he =>
    iterate 10 right
    exact ⟨hs, rfl, he, rfl, rfl⟩

end Sys2Proof.Machine

/-! # The step rules of the loop

Each row of the loop does what its rule does whatever `STATE` holds (log entry 24): the limit is tested before the level,
and the falling edge writes one bit of the frame buffer (43_bit_decode.md R90, R91, R93, R94). -/

namespace Sys2Proof.Machine

section
variable {w : Nat} {p : Params} {s : State w}

/-- Past the limit the line is stuck low, whatever the level (R90, R115). -/
theorem bitLowRule_timeout (he : p.tLow < (elapsed s).toNat) :
    bitLowRule p s = { s with status := .error .stuckLow, done := true, state := stIdle } := if_pos he

/-- Within the limit a high sample begins the high phase (R90). -/
theorem bitLowRule_rise (he : (elapsed s).toNat ≤ p.tLow) (hl : s.lvl = .high) :
    bitLowRule p s = { s with t0 := s.now, state := stBitHigh } := (if_neg he.not_gt).trans (if_pos hl)

/-- Within the limit a low sample is waited out (R90). -/
theorem bitLowRule_wait (he : (elapsed s).toNat ≤ p.tLow) (hl : s.lvl = .low) : bitLowRule p s = s :=
  (if_neg he.not_gt).trans (if_neg (by simp [hl]))

/-- Past the limit the line is stuck high, whatever the level, and no bit is written (R91, R115). -/
theorem bitHighRule_timeout (he : p.tHigh < (elapsed s).toNat) :
    bitHighRule p s = { s with status := .error .stuckHigh, done := true, state := stIdle } := if_pos he

/-- Within the limit a high sample is waited out (R91). -/
theorem bitHighRule_wait (he : (elapsed s).toNat ≤ p.tHigh) (hl : s.lvl = .high) : bitHighRule p s = s :=
  (if_neg he.not_gt).trans (if_neg (by simp [hl]))

/-- Within the limit a low sample ends the pulse, and the loop with the last one (R91, R95). -/
theorem bitHighRule_fall (hwf : p.wf = true) (he : (elapsed s).toNat ≤ p.tHigh) (hl : s.lvl = .low) :
    bitHighRule p s =
      { s with
        frame := s.frame.place s.cnt.toNat (bitOf p (elapsed s)) p, cnt := s.cnt + 1, t0 := s.now
        state := if s.cnt.toNat + 1 = p.nPulses then stValidate else stBitLow } := by
  rw [← afterPulse_eq_of_wf hwf]
  exact (if_neg he.not_gt).trans (if_pos hl)

end

/-- For the default parameters a pulse of the loop writes the bit at its place of R53 and no other (R91, R94). -/
theorem getLsbD_get_place_params (f : Frame) {k i q : Nat} (v : Bool) (hk : k ≤ 40) (hi : i < 6) (hq : q < 8) :
    ((f.place k v).get i).getLsbD q =
      if i = (if k = 0 then 0 else 1 + (k - 1) / 8) ∧ q = (if k = 0 then 0 else 7 - (k - 1) % 8) then v
      else (f.get i).getLsbD q := by
  have hbyte : bytePos k = if k = 0 then 0 else 1 + (k - 1) / 8 := by simp only [bytePos_eq, Nat.lt_one_iff]
  have hbit : bitPos k = if k = 0 then 0 else 7 - (k - 1) % 8 := by
    rw [bitPos_eq]
    split <;> split <;> omega
  rw [getLsbD_get_place params_wf f v (Nat.lt_succ_of_le hk) hi hq, hbyte, hbit]

/-- The row of `BIT_LOW` is its rule (R90). -/
theorem exec_stepBitLow (s : State) : exec .stepBitLow s = .next (bitLowRule params s) := rfl

/-- The row of `BIT_HIGH` is its rule (R91). -/
theorem exec_stepBitHigh (s : State) : exec .stepBitHigh s = .next (bitHighRule params s) := rfl

/-- Settles O20: the row is the rule of `BIT_HIGH`, with its limit of 200 ticks, its 41 pulses, and the bit set past 110
ticks. -/
theorem bitHighDecodesThePulse : Obligations.BitHighDecodesThePulse := by
  intro s hcnt
  rw [exec_stepBitHigh, ← toNat_elapsed_eq_ticksSince]
  refine ⟨fun he => congrArg _ (bitHighRule_timeout he), fun he hl => congrArg _ (bitHighRule_wait he hl),
    fun he hl => ⟨s.frame.place s.cnt.toNat (bitOf params (elapsed s)), ?_,
      fun i q hi hq => getLsbD_get_place_params s.frame _ hcnt hi hq⟩⟩
  have hlast : s.cnt.toNat + 1 = params.nPulses ↔ s.cnt.toNat = 40 := Nat.succ_inj
  rw [bitHighRule_fall params_wf he hl]
  simp only [hlast]

/-- Settles O19: the row is the rule of `BIT_LOW`, which tests its limit of 100 ticks before the level. -/
theorem bitLowWaitsForTheRisingEdge : Obligations.BitLowWaitsForTheRisingEdge := by
  intro s
  rw [exec_stepBitLow, ← toNat_elapsed_eq_ticksSince]
  exact ⟨fun he => congrArg _ (bitLowRule_timeout he), fun he hl => congrArg _ (bitLowRule_rise he hl),
    fun he hl => congrArg _ (bitLowRule_wait he hl)⟩

end Sys2Proof.Machine

/-! # The end of a cycle

The rule of `VALIDATE` and the rows of the `STATUS` codes end a cycle whatever `STATE` holds (log entries 11 and 24):
`STATUS`, `DONE` and `STATE` are written and nothing else (44_validate.md R99 to R101, 60_exceptions.md R105, R107,
R116). -/

namespace Sys2Proof.Machine

section
variable {w : Nat} {p : Params} {s : State w}

/-- Without the marker the checksum is not looked at (R99, R116). -/
theorem validateRule_missingMarker (hm : s.frame.marker ≠ p.markerValue) :
    validateRule p s = finish (.error .missingStartMarker) s :=
  if_pos (by simpa [markerOk] using hm)

/-- With the marker in place the rest of the rule is the checksum comparison (R99, R100). -/
theorem validateRule_marker (hm : s.frame.marker = p.markerValue) :
    validateRule p s =
      if checksum s.frame ≠ s.frame.byte5 then finish (.error .checksumMismatch) s else finish .ok s :=
  if_neg (by simpa [markerOk] using hm)

/-- The rule of `VALIDATE` ends the cycle with the outcome that the frame decides (R99). -/
theorem validateRule_eq_finish :
    validateRule p s =
      finish
        (if s.frame.marker ≠ p.markerValue then .error .missingStartMarker
          else if checksum s.frame ≠ s.frame.byte5 then .error .checksumMismatch
          else .ok) s := by
  by_cases hm : s.frame.marker = p.markerValue
  · rw [validateRule_marker hm, if_neg (not_not.mpr hm), apply_ite (finish · s)]
  · rw [validateRule_missingMarker hm, if_pos hm]

end

/-- The marker comparison of `VALIDATE` on numbers, for the default parameters (R101). -/
theorem marker_eq_markerValue_iff (f : Frame) : f.marker = params.markerValue ↔ f.marker.toNat = 1 :=
  BitVec.toNat_inj.symm

/-- The row of `VALIDATE` is its rule, whatever `STATE` holds (R99). -/
theorem exec_stepValidate_eq_rule (s : State) : exec .stepValidate s = .next (validateRule params s) := rfl

/-- Settles O22: the row is the rule of `VALIDATE`, with the two comparisons as comparisons of numbers. -/
theorem validateChecksMarkerThenChecksum : Obligations.ValidateChecksMarkerThenChecksum := by
  intro s
  rw [exec_stepValidate_eq_rule, validateRule_eq_finish]
  simp only [ne_eq, marker_eq_markerValue_iff, checksum_eq_byte5_iff]
  rfl

/-- The table row of each error kind (R105). -/
def ErrorKind.instr : ErrorKind → Instr
  | .noResponse => .noResponse
  | .stuckLow => .stuckLow
  | .stuckHigh => .stuckHigh
  | .missingStartMarker => .missingStartMarker
  | .checksumMismatch => .checksumMismatch

/-- The row of an error kind raises it, whatever `STATE` holds (R107). -/
theorem exec_errorKind (k : ErrorKind) (s : State) : exec k.instr s = .next (raise k s) := by cases k <;> rfl

/-- The row of the success code is the success exit (R99). -/
theorem exec_ok (s : State) : exec .ok s = .next (finish .ok s) := rfl

/-- A raised error leaves the block idle (R27, R107). -/
theorem busy_raise (k : ErrorKind) (s : State) : busy (raise k s) = false := (busy_eq_false_iff _).mpr rfl

/-- A raised error leaves no valid reading (R27, R107). -/
theorem valid_raise (k : ErrorKind) (s : State) : valid (raise k s) = false := rfl

/-- Settles O23: each error row raises its kind, and what the block shows of the raised kind is read off `finish`. -/
theorem outcomesWriteStatusDoneState : Obligations.OutcomesWriteStatusDoneState := by
  intro s
  refine ⟨exec_errorKind .noResponse s, exec_errorKind .stuckLow s, exec_errorKind .stuckHigh s,
    exec_errorKind .missingStartMarker s, exec_errorKind .checksumMismatch s, exec_ok s, ?_⟩
  rintro k _ rfl
  exact ⟨busy_raise k s, valid_raise k s, result_of_error rfl rfl⟩

end Sys2Proof.Machine

/-! # Waits that time out

A wait for a level that does not come is the samples of its limit, in which the block stays where it is, and one sample
more, at either level, on which it fails (60_exceptions.md R108 to R110, R115). -/

namespace Sys2Proof.Machine

section
variable {s : State} {n limit : Nat} {l : Level} {rest : List Event}

/-- The events of `SYNC1` are the samples without `rst`, one tick after the sample before (R37). -/
theorem isTick_iff (e : Event) : e.isTick = true ↔ ∃ x : Sample, e = .sample x ∧ x.rst = false ∧ x.ticks = 1 := by
  cases e <;> simp [Event.isTick]

/-- The elapsed time of a wait that began with `T0` stamped is the number of its samples (R76). -/
theorem elapsed_waited (ht : s.t0 = s.now) (hn : n < 65536) : (elapsed (waited n l rest s)).toNat = n :=
  elapsed_ticks (by rw [waited, ht]) hn

/-- A wait of at least one sample leaves its level as last sampled (R38). -/
theorem waited_succ_lvl : (waited (n + 1) l rest s).lvl = l := rfl

/-- Up to its limit a wait only takes its samples (R85, R90, R91). -/
theorem run_within_limit (ht : s.t0 = s.now) (hlimit : limit < 65536)
    (hi : s.inputs = List.replicate limit (lineSample l) ++ rest)
    (hwait : ∀ u : State, u.state = s.state → u.lvl = l → (elapsed u).toNat ≤ limit → Move params u u)
    (hn : n ≤ limit) :
    run n s = .next (waited n l (List.replicate (limit - n) (lineSample l) ++ rest) s) := by
  refine run_wait n s ?_ fun k hk => hwait _ rfl waited_succ_lvl ?_
  · rw [hi, ← List.append_assoc, List.replicate_append_replicate, Nat.add_sub_cancel' hn]
  · rw [elapsed_waited ht (by omega)]
    omega

/-- A wait for which the limit is tested before the level ends in the step after its limit, and not before (R107,
R115). -/
theorem wait_times_out {e : Event} (k : ErrorKind) (ht : s.t0 = s.now) (he : e.isTick = true)
    (hlimit : limit < 65535) (hi : s.inputs = List.replicate limit (lineSample l) ++ e :: rest)
    (hwait : ∀ u : State, u.state = s.state → u.lvl = l → (elapsed u).toNat ≤ limit → Move params u u)
    (hfail : ∀ u : State, u.state = s.state → limit < (elapsed u).toNat → Move params u (raise k u)) :
    (∀ n, n ≤ limit → ∃ t, run n s = .next t ∧ t.state = s.state) ∧
      ∃ t, run (limit + 1) s = .next t ∧ t.state = stIdle ∧ t.done = true ∧ t.status = .error k ∧
        t.frame = s.frame ∧ t.cnt = s.cnt := by
  have hrun : ∀ n, n ≤ limit → run n s = .next (waited n l _ s) := fun n =>
    run_within_limit ht (Nat.lt_succ_of_lt hlimit) hi hwait
  refine ⟨fun n hn => ⟨_, hrun n hn, rfl⟩, ?_⟩
  obtain ⟨x, rfl, hrst, hticks⟩ := (isTick_iff e).mp he
  have hlast : (waited limit l (List.replicate (limit - limit) (lineSample l) ++ .sample x :: rest) s).inputs =
      .sample x :: rest := by simp [waited]
  have hpast : limit < (elapsed (latch x (waited limit l rest s))).toNat := by
    have hatLimit := elapsed_waited (rest := rest) (l := l) ht (Nat.lt_succ_of_lt hlimit)
    rw [elapsed_latch_tick hticks (by rwa [hatLimit]), hatLimit]
    exact Nat.lt_succ_self limit
  rw [run_step (hrun limit le_rfl), step_sample hlast hrst]
  exact ⟨_, blockStep_of_move (hfail _ rfl hpast), rfl, rfl, rfl, rfl, rfl⟩

end

/-- Settles O32: each wait stays within its limit and fails past it, by the edges of the state graph. -/
theorem waitsTimeOutAtTheirLimit : Obligations.WaitsTimeOutAtTheirLimit := by
  intro s e rest ht he
  refine ⟨fun hs hi => ?_, fun hs hi => ?_, fun hs hi => ?_⟩
  · rw [← hs]
    exact wait_times_out .noResponse ht he (by omega) hi
      (fun u hu hl hle => .awaiting (hu.trans hs) hle hl) fun u hu hlt => .noResponse (hu.trans hs) hlt
  · rw [← hs]
    exact wait_times_out .stuckLow ht he (by omega) hi
      (fun u hu hl hle => .stillLow (hu.trans hs) hle hl) fun u hu hlt => .stuckLow (hu.trans hs) hlt
  · rw [← hs]
    exact wait_times_out .stuckHigh ht he (by omega) hi
      (fun u hu hl hle => .stillHigh (hu.trans hs) hle hl) fun u hu hlt => .stuckHigh (hu.trans hs) hlt

end Sys2Proof.Machine

/-! # Reset

What a reset writes, and what the host reads after it (70_reset_and_hazards.md R126 to R128). -/

namespace Sys2Proof.Machine

/-- Before a cycle has finished there is no valid reading (R27). -/
theorem valid_of_running {w : Nat} {s : State w} (hd : s.done = false) : valid s = false := by simp [valid, hd]

/-- A block in `IDLE` without a finished cycle shows the host none under way and no result (R27, R28). -/
theorem outputs_of_idle_running {s : State} (hs : s.state = stIdle) (hd : s.done = false) :
    busy s = false ∧ valid s = false ∧ result s = .none :=
  ⟨(busy_eq_false_iff s).mpr hs, valid_of_running hd, result_of_running hd⟩

/-- Settles O8: a step on such a sample resets the latched state, whatever `STATE` and `start` are. -/
theorem rstResetsEveryRegister : Obligations.RstResetsEveryRegister := by
  intro s x es hi hrst
  refine ⟨BitVec.ofNat 16 (Config.freeT0 s.draws), s.draws + 1, resetBlock (latch x { s with inputs := es }),
    step_rst hi hrst, ?_, outputs_of_idle_running rfl rfl⟩
  rw [← hrst]
  rfl

/-- Settles O9: the registers by their reset values, the outputs because the block is idle without a finished cycle. -/
theorem resetLeavesTheBlockIdle : Obligations.ResetLeavesTheBlockIdle :=
  ⟨rfl, rfl, rfl, rfl, rfl, rfl, rfl, outputs_of_idle_running rfl rfl⟩

end Sys2Proof.Machine

/-! # The writers of the registers

The written-by column of the register table (10_state.md section 1): a move of the block leaves a register as it is, or is
an edge of one of the states whose rules write it. No move writes the model's own fields (log entries 2, 3, 5). -/

namespace Sys2Proof.Machine

section
variable {w : Nat} {p : Params} {s t : State w}

/-- The pin is written where the wake pulse begins and where it ends (R26). -/
theorem Move.pin_eq_or (m : Move p s t) :
    (t.oe = s.oe ∧ t.out = s.out) ∨ s.state = stIdle ∨ s.state = stRequestStart := by
  cases m with
  | accept hs => exact .inr (.inl hs)
  | release hs => exact .inr (.inr hs)
  | _ => exact .inl ⟨rfl, rfl⟩

/-- The frame buffer and its counter are cleared where a cycle begins and written where a pulse ends (R21, R23). -/
theorem Move.frame_cnt_eq_or (m : Move p s t) :
    (t.frame = s.frame ∧ t.cnt = s.cnt) ∨ s.state = stIdle ∨ s.state = stBitHigh := by
  cases m with
  | accept hs => exact .inr (.inl hs)
  | fall hs => exact .inr (.inr hs)
  | _ => exact .inl ⟨rfl, rfl⟩

/-- `T0` is written by the edges that start a new measurement, and takes the counter value (R22). -/
theorem Move.t0_eq_or (m : Move p s t) : t.t0 = s.t0 ∨ (s.state.toNat ≤ 4 ∧ t.t0 = t.now) := by
  cases m with
  | accept hs | release hs | acknowledge hs | rise hs | fall hs => exact .inr ⟨by simp [hs], rfl⟩
  | _ => exact .inl rfl

/-- The outcome is cleared where a cycle begins and written where it ends (R24, R25). -/
theorem Move.outcome_eq_or (m : Move p s t) :
    (t.status = s.status ∧ t.done = s.done) ∨
      (s.state = stIdle ∧ s.start = true) ∨ (2 ≤ s.state.toNat ∧ t.state = stIdle) := by
  cases m with
  | accept hs hstart => exact .inr (.inl ⟨hs, hstart⟩)
  | noResponse hs | stuckLow hs | stuckHigh hs | badMarker hs | badChecksum hs | success hs =>
    exact .inr (.inr ⟨by simp [hs], rfl⟩)
  | _ => exact .inl ⟨rfl, rfl⟩

/-- No move returns a value (log entry 3). -/
theorem Move.answer_eq (m : Move p s t) : t.answer = s.answer := by cases m <;> rfl

/-- No move draws a free value (log entry 2). -/
theorem Move.draws_eq (m : Move p s t) : t.draws = s.draws := by cases m <;> rfl

end

/-- Settles O39: the step is a move of the latched state, which holds the registers of `s`; what a move changes, one of
the register's writers has written. -/
theorem registersHaveOnlyTheirWriters : Obligations.RegistersHaveOnlyTheirWriters := by
  intro s t x es hi hrst hstep
  have m : Move params (latch x { s with inputs := es }) t := blockStep_move ((step_sample hi hrst).symm.trans hstep)
  exact ⟨fun hne => m.pin_eq_or.resolve_left (not_and_or.mpr hne),
    fun hne => m.frame_cnt_eq_or.resolve_left (not_and_or.mpr hne),
    fun hne => m.t0_eq_or.resolve_left hne,
    fun hne => m.outcome_eq_or.resolve_left (not_and_or.mpr hne),
    m.answer_eq, m.draws_eq, m.inputs_eq⟩

/-- Settles O21: the place of such a pulse is beyond the six bytes, and the pulse is not the last of the loop. -/
theorem bitHighBeyondTheLoopWritesNoFrameBit : Obligations.BitHighBeyondTheLoopWritesNoFrameBit := by
  intro s hcnt he hl
  rw [← toNat_elapsed_eq_ticksSince] at he
  have hnotLast : s.cnt.toNat + 1 ≠ params.nPulses := (Nat.lt_succ_of_le hcnt).ne'
  rw [exec_stepBitHigh, bitHighRule_fall params_wf he hl, place_beyond _ _ _ hcnt, if_neg hnotLast]

/-- Settles O46: the parameters of the machine are the defaults by definition, and so is its step; that they meet the
constraints is computed. -/
theorem defaultInstanceIsTheMachine : Obligations.DefaultInstanceIsTheMachine :=
  ⟨rfl, rfl, rfl, rfl, rfl, rfl, rfl, rfl, rfl, rfl, params_markerValue, rfl, rfl, params_wf, fun _ => rfl⟩

end Sys2Proof.Machine
